-- ==== Sys2Proof/Word.lean ====
section
/-! DEFINITION. The widths of the engine's values (spec/00_scope.md R7, R8): everything is unsigned. -/

namespace Sys2Proof

/-- A register or command word: 32 bits (00_scope R7). -/
abbrev Word := BitVec 32

/-- A CRC state, seed, mask or table entry: 16 bits (00_scope R7). -/
abbrev Half := BitVec 16

/-- A buffer element or table index: 8 bits (00_scope R7). -/
abbrev Byte := BitVec 8

end Sys2Proof
end

