-- ==== Sys2Proof/Syntax.lean ====
section
/-! DEFINITION. The syntax of the engine's commands: one constructor for each row of spec/opcode_table.json, with the operands
that spec/30_encoding.md R72 takes from the command word. ADDR and LEN are no part of an instruction: they are read from the
staging registers when it runs (30_encoding R70). -/

namespace Sys2Proof

/-- The five table ROMs, in the order of 40_tables R100. -/
inductive Table where
  | ccittReverse | ccittForward | p5935 | p755B | p9949Reverse
deriving DecidableEq, Repr

/-- The four fault causes of 60_exceptions R160. -/
inductive Cause where
  | illegalOpcode | reservedField | badTsel | bounds
deriving DecidableEq, Repr

/-- The nine operations, one for each defined OPC value (30_encoding R74). -/
inductive Opcode where
  | ccitt | ccittSeed | x25Ccitt | crc16p5935 | crc16p755B | crc16p9949Seed | kref | kunref | tblrd
deriving DecidableEq, Repr

/-- A command (30_encoding R74). `tsel` is the raw table select of the word; `WellFormed` says that it names a table. -/
inductive Instr where
  /-- CCITT (42_variants R141). -/
  | ccitt
  /-- CCITT_SEED (42_variants R142). -/
  | ccittSeed (seed : Half)
  /-- X25_CCITT (42_variants R143). -/
  | x25Ccitt
  /-- CRC16_5935 (42_variants R144). -/
  | crc16p5935 (seed : Half)
  /-- CRC16_755B (42_variants R145). -/
  | crc16p755B (seed : Half)
  /-- CRC16_9949_SEED (42_variants R146). -/
  | crc16p9949Seed (seed : Half)
  /-- KREF (41_kernels R128). -/
  | kref (tsel : BitVec 3) (seed : Half)
  /-- KUNREF (41_kernels R129). -/
  | kunref (tsel : BitVec 3) (seed : Half)
  /-- TBLRD (40_tables R104). -/
  | tblrd (tsel : BitVec 3) (index : Byte)
deriving DecidableEq, Repr

/-- The operation of a command. -/
def Instr.opcode : Instr → Opcode
  | .ccitt => .ccitt
  | .ccittSeed _ => .ccittSeed
  | .x25Ccitt => .x25Ccitt
  | .crc16p5935 _ => .crc16p5935
  | .crc16p755B _ => .crc16p755B
  | .crc16p9949Seed _ => .crc16p9949Seed
  | .kref _ _ => .kref
  | .kunref _ _ => .kunref
  | .tblrd _ _ => .tblrd

/-- Does the operation read ADDR, LEN and the buffer (the column "buffer" of 30_encoding R74)? -/
def Opcode.isBuffer : Opcode → Bool
  | .tblrd => false
  | .ccitt | .ccittSeed | .x25Ccitt | .crc16p5935 | .crc16p755B | .crc16p9949Seed | .kref | .kunref => true

end Sys2Proof
end

