-- ==== Sys2Proof/WellFormed.lean ====
section
/-! DEFINITION. Which terms of `Instr` are commands of the spec. Every operand has the width of its field, so the one check is
that a table select names a table (spec/30_encoding.md R73: 0..4; 5, 6 and 7 fault with BAD_TSEL). -/

namespace Sys2Proof

/-- The legal table selects are 0..4 (30_encoding R72, R73). -/
def legalTsel (tsel : BitVec 3) : Bool := decide (tsel ≤ 4#3)

/-- A command is well-formed when its table select, if it has one, is legal. -/
def Instr.wellFormed : Instr → Bool
  | .kref tsel _ => legalTsel tsel
  | .kunref tsel _ => legalTsel tsel
  | .tblrd tsel _ => legalTsel tsel
  | .ccitt | .ccittSeed _ | .x25Ccitt | .crc16p5935 _ | .crc16p755B _ | .crc16p9949Seed _ => true

/-- The check as a proposition. -/
abbrev WellFormed (i : Instr) : Prop := i.wellFormed = true

end Sys2Proof
end

