-- ==== Sys2Proof/Decode.lean ====
section
/-! DEFINITION. The command word: its fields, the decoder of spec/30_encoding.md R79 (total over all 2^32 words, each word either
an instruction or one fault cause), and the encoder of R75 and R80. -/

namespace Sys2Proof

/-! ### Fields of the command word (30_encoding R71) -/

/-- OPC, bits 7:0. -/
def opcField (w : Word) : Byte := w.extractLsb' 0 8

/-- TSEL, bits 10:8. -/
def tselField (w : Word) : BitVec 3 := w.extractLsb' 8 3

/-- RSV, bits 15:11, reserved. -/
def rsvField (w : Word) : BitVec 5 := w.extractLsb' 11 5

/-- IMM16, bits 31:16: the seed of a seeded command. -/
def immField (w : Word) : Half := w.extractLsb' 16 16

/-- The table index, IMM16[7:0], bits 23:16 (30_encoding R72). -/
def indexField (w : Word) : Byte := w.extractLsb' 16 8

/-- IMM16[15:8], bits 31:24: reserved in TBLRD (30_encoding R72). -/
def immHighField (w : Word) : Byte := w.extractLsb' 24 8

/-! ### The opcode map (30_encoding R74) -/

/-- The OPC value of each operation. -/
def Opcode.code : Opcode → Byte
  | .ccitt => 0x01#8
  | .ccittSeed => 0x02#8
  | .x25Ccitt => 0x03#8
  | .crc16p5935 => 0x04#8
  | .crc16p755B => 0x05#8
  | .crc16p9949Seed => 0x06#8
  | .kref => 0x10#8
  | .kunref => 0x11#8
  | .tblrd => 0x20#8

/-- The operation an OPC value names; the other 247 values name none (30_encoding R76). -/
def opcodeOf (opc : Byte) : Option Opcode :=
  if opc = 0x01#8 then some .ccitt
  else if opc = 0x02#8 then some .ccittSeed
  else if opc = 0x03#8 then some .x25Ccitt
  else if opc = 0x04#8 then some .crc16p5935
  else if opc = 0x05#8 then some .crc16p755B
  else if opc = 0x06#8 then some .crc16p9949Seed
  else if opc = 0x10#8 then some .kref
  else if opc = 0x11#8 then some .kunref
  else if opc = 0x20#8 then some .tblrd
  else none

/-- KREF, KUNREF and TBLRD use TSEL; in every other operation it must be 0 (30_encoding R71, R77). -/
def Opcode.usesTsel : Opcode → Bool
  | .kref | .kunref | .tblrd => true
  | .ccitt | .ccittSeed | .x25Ccitt | .crc16p5935 | .crc16p755B | .crc16p9949Seed => false

/-- CCITT and X25_CCITT use no part of IMM16: it must be 0 (30_encoding R74, R77). -/
def Opcode.immMustBeZero : Opcode → Bool
  | .ccitt | .x25Ccitt => true
  | .ccittSeed | .crc16p5935 | .crc16p755B | .crc16p9949Seed | .kref | .kunref | .tblrd => false

/-- A must-be-zero field of w is nonzero for this operation (30_encoding R77). -/
def reservedFieldNonzero (op : Opcode) (w : Word) : Bool :=
  rsvField w != 0#5
    || (!op.usesTsel && tselField w != 0#3)
    || (op.immMustBeZero && immField w != 0#16)
    || (op == .tblrd && immHighField w != 0#8)

/-- The instruction of an operation with the operands that w holds (30_encoding R72). -/
def buildInstr (op : Opcode) (w : Word) : Instr :=
  match op with
  | .ccitt => .ccitt
  | .ccittSeed => .ccittSeed (immField w)
  | .x25Ccitt => .x25Ccitt
  | .crc16p5935 => .crc16p5935 (immField w)
  | .crc16p755B => .crc16p755B (immField w)
  | .crc16p9949Seed => .crc16p9949Seed (immField w)
  | .kref => .kref (tselField w) (immField w)
  | .kunref => .kunref (tselField w) (immField w)
  | .tblrd => .tblrd (tselField w) (indexField w)

/-- What the decoder yields: an instruction, or the cause of the decode fault. -/
inductive Decoded where
  | instr (i : Instr)
  | fault (c : Cause)
deriving DecidableEq, Repr

/-- The decoder (30_encoding R79): the checks in the spec's order, the first that fails decides the cause. -/
def decode (w : Word) : Decoded :=
  match opcodeOf (opcField w) with
  | none => .fault .illegalOpcode
  | some op =>
    if reservedFieldNonzero op w then .fault .reservedField
    else if op.usesTsel && !legalTsel (tselField w) then .fault .badTsel
    else .instr (buildInstr op w)

/-! ### The encoder (30_encoding R71, R75, R80) -/

/-- IMM16, RSV = 0, TSEL and OPC side by side, bit 31 on the left. -/
def commandWord (imm : Half) (tsel : BitVec 3) (op : Opcode) : Word :=
  imm ++ 0#5 ++ tsel ++ op.code

/-- The word of a command. -/
def encode : Instr → Word
  | .ccitt => commandWord 0#16 0#3 .ccitt
  | .ccittSeed seed => commandWord seed 0#3 .ccittSeed
  | .x25Ccitt => commandWord 0#16 0#3 .x25Ccitt
  | .crc16p5935 seed => commandWord seed 0#3 .crc16p5935
  | .crc16p755B seed => commandWord seed 0#3 .crc16p755B
  | .crc16p9949Seed seed => commandWord seed 0#3 .crc16p9949Seed
  | .kref tsel seed => commandWord seed tsel .kref
  | .kunref tsel seed => commandWord seed tsel .kunref
  | .tblrd tsel index => commandWord (0#8 ++ index) tsel .tblrd

/-- The match value of each operation, from the table of 30_encoding R75. -/
def Opcode.matchBits : Opcode → Word
  | .ccitt => 0x00000001#32
  | .ccittSeed => 0x00000002#32
  | .x25Ccitt => 0x00000003#32
  | .crc16p5935 => 0x00000004#32
  | .crc16p755B => 0x00000005#32
  | .crc16p9949Seed => 0x00000006#32
  | .kref => 0x00000010#32
  | .kunref => 0x00000011#32
  | .tblrd => 0x00000020#32

/-- The mask of each operation, from the table of 30_encoding R75. -/
def Opcode.maskBits : Opcode → Word
  | .ccitt => 0xFFFFFFFF#32
  | .ccittSeed => 0x0000FFFF#32
  | .x25Ccitt => 0xFFFFFFFF#32
  | .crc16p5935 => 0x0000FFFF#32
  | .crc16p755B => 0x0000FFFF#32
  | .crc16p9949Seed => 0x0000FFFF#32
  | .kref => 0x0000F8FF#32
  | .kunref => 0x0000F8FF#32
  | .tblrd => 0xFF00F8FF#32

/-- A row's bits in the numbering of spec/opcode_table.json: the one command word, whose bits above `nbits` are 0. -/
def tableWord (nbits w : Nat) : Word := BitVec.ofNat 32 (w % 2 ^ nbits)

/-- The instruction the decoder reads from a row of spec/opcode_table.json (every row is one 32-bit word). -/
def decodeTableWord (nbits w : Nat) : Option Instr :=
  match decode (tableWord nbits w) with
  | .instr i => some i
  | .fault _ => none

end Sys2Proof
end

