-- ==== Sys2Proof/Config.lean ====
section
/-! DEFINITION. The engine's implementation parameters that spec/00_scope.md R7 gives a value. The two it leaves open
(`Readable` and `CRC_BASE`) are plain data of the state (Machine/State.lean), so that a statement about every state is one
about every platform. The engine has no free value: no rule of the spec leaves an instruction's result open. -/

namespace Sys2Proof.Config

/-- CCITT_SEED_XOROUT, the output mask of CCITT_SEED (00_scope R7, 42_variants R142).
The spec's value, by its resolution of conflict C1 (90_conflicts); log 11. -/
def ccittSeedXorout : Half := 0xFFFF#16

/-- The size of the buffer space, 2^32 bytes (20_memory R50). -/
abbrev bufferSpace : Nat := 4294967296

/-- The size of the register window, 64 bytes, which is also the alignment of CRC_BASE (10_state R32). -/
abbrev windowBytes : Nat := 64

end Sys2Proof.Config
end

