-- ==== Sys2Proof/Machine/State.lean ====
section
/-! DEFINITION. The state of the engine and of what surrounds it: the registers of spec/10_state.md, the buffer memory it reads,
the platform's parameters, the host accesses that have arrived, and the values returned to the host. All of it is plain data.
The table ROMs are constants (Machine/Tables.lean): nothing writes them (10_state R27). The working register crc and the byte
index i exist only within one atomic command and are no state (10_state R28). -/

namespace Sys2Proof.Machine

/-- A range of addresses: `size` bytes from `base` on. -/
structure Range where
  base : Nat
  size : Nat
deriving DecidableEq, Repr

/-- The platform's parameters, each a model argument (00_scope R7). CRC_BASE is a multiple of 64 (10_state R32), so it is held as
CRC_BASE / 64. `Readable` is held as the ranges it covers, and so are the addresses whose reads have side effects (20_memory R51,
R59). The engine writes none of them (log 2, 3, 4). -/
structure Platform where
  crcBlock : Nat
  readableRanges : List Range
  sideEffectRanges : List Range
deriving DecidableEq, Repr

/-- The buffer memory: (address, byte) pairs in one canonical form (`Memory.wf`, Machine/Ops.lean). -/
abbrev Memory := List Host.Cell

/-- What reaches the engine and its memory from outside, one at a time (20_memory R61; log 17). -/
inductive Input where
  /-- A host reads `bytes` bytes at the platform address `addr`. -/
  | read (addr : Nat) (bytes : Nat)
  /-- A host writes `bytes` bytes at the platform address `addr`; `value` is what an aligned 32-bit write carries. -/
  | write (addr : Nat) (bytes : Nat) (value : Word)
  /-- A host or another agent stores a byte into the buffer memory (70_reset R193, R198). -/
  | store (addr : Word) (value : Byte)
  /-- The platform changes `Readable` between two commands (20_memory R51; log 10). -/
  | setReadable (ranges : List Range)
  /-- The platform asserts reset (70_reset R190). -/
  | reset
deriving DecidableEq, Repr

/-- The registers of the window (10_state R32). -/
inductive Reg where
  | cmd | addr | len | result | status | finfo | reserved
deriving DecidableEq, Repr

/-- What a host access addresses: a register, the window but not by an aligned 32-bit access, or no byte of the window. -/
inductive Target where
  | register (r : Reg)
  | misaccess
  | outside
deriving DecidableEq, Repr

/-- RESULT (10_state R24): RAW in bits 31:16, OUT in bits 15:0. -/
structure Result where
  raw : Half
  out : Half
deriving DecidableEq, Repr

/-- STATUS (10_state R25): VALID bit 0, FAULT bit 1, CAUSE bits 7:4. The other bits are hard-wired 0 and hold nothing. -/
structure Status where
  valid : Bool
  fault : Bool
  cause : BitVec 4
deriving DecidableEq, Repr

/-- The whole state. `addr` to `finfo` are the engine's registers; `mem` is the buffer memory; `platform` holds the platform's
parameters; `pending` holds the accesses and events that have arrived and are not yet served, oldest first; `replies` holds the
values returned to host reads, newest first. -/
structure State where
  addr : Word
  len : Word
  result : Result
  status : Status
  finfo : Word
  mem : Memory
  platform : Platform
  pending : List Input
  replies : List Word
deriving DecidableEq, Repr

/-- A reason to stop with a fault. THERE IS NONE: the engine's own faults are states it goes on from (60_exceptions R161), every
buffer address exists (20_memory R50), and host misuse is refused (60_exceptions R168); log 15. Safe. -/
inductive Fault where
deriving DecidableEq, Repr

/-- A reason to give a step no meaning. All of them are safe: nothing can be proved of a run that contains one. -/
inductive Refusal where
  /-- `exec` raises it for an instruction that has no meaning yet: no arm does. Safe. -/
  | notModelled (mnemonic : String)
  /-- `step` raises it for an access to the register window that is not an aligned 32-bit access (60_exceptions R168, 10_state
  R35). Safe. -/
  | badWindowAccess
  /-- `step` raises it on a platform whose `Readable` covers the register window,
  and on the event that would bring such a `Readable` (60_exceptions R168, 20_memory R59). Safe. -/
  | readableCoversWindow
  /-- `step` raises it on a platform whose `Readable` covers memory with read side effects,
  and on the event that would bring such a `Readable` (60_exceptions R168, 20_memory R59). Safe. -/
  | readableHasSideEffects
  /-- `step` raises it for a host access that touches no byte of the register window: it is not an access to the engine, and the
  spec leaves everything else at those addresses to the platform (20_memory R66); log 8. Safe. -/
  | outsideWindow
deriving DecidableEq, Repr

/-- The machine right after reset: every register 0 (10_state R37), running. The spec gives no value for the rest: no buffer byte
stored (log 1), CRC_BASE = 0 and nothing `Readable` (log 2), no access arrived (log 5) and none answered (log 7). -/
def State.reset : State where
  addr := 0#32
  len := 0#32
  result := { raw := 0#16, out := 0#16 }
  status := { valid := false, fault := false, cause := 0#4 }
  finfo := 0#32
  mem := []
  platform := { crcBlock := 0, readableRanges := [], sideEffectRanges := [] }
  pending := []
  replies := []

end Sys2Proof.Machine
end

