-- ==== Sys2Proof/Machine/Flags.lean ====
section
/-! DEFINITION. STATUS and RESULT as the host reads them, and what the end of a command does to STATUS. The engine has no other
flag and no condition code (spec/10_state.md R31). -/

namespace Sys2Proof.Machine

/-- The code of a cause in STATUS.CAUSE (60_exceptions R160). -/
def causeCode : Cause → BitVec 4
  | .illegalOpcode => 1#4
  | .reservedField => 2#4
  | .badTsel => 3#4
  | .bounds => 4#4

/-- STATUS as a word (10_state R25): 31:8 reserved, CAUSE, 3:2 reserved, FAULT, VALID. -/
def statusWord (st : Status) : Word :=
  0#24 ++ st.cause ++ 0#2 ++ BitVec.ofBool st.fault ++ BitVec.ofBool st.valid

/-- RESULT as a word (10_state R24): RAW, OUT. -/
def resultWord (r : Result) : Word := r.raw ++ r.out

/-- STATUS after a successful command: VALID is set, FAULT and CAUSE are not written (41_kernels R127). -/
def statusOnSuccess (st : Status) : Status := { st with valid := true }

/-- STATUS after a fault: FAULT is set, CAUSE receives the code, VALID is not written (60_exceptions R161). -/
def statusOnFault (c : Cause) (st : Status) : Status := { st with fault := true, cause := causeCode c }

end Sys2Proof.Machine
end

