-- ==== Sys2Proof/Machine/Ops.lean ====
section
/-! DEFINITION. The named operations over the state: buffer memory, the platform's predicates, taking a fault and leaving it by
reset, ending a command, and the registers of the window. -/

namespace Sys2Proof.Machine

/-! ### Buffer memory (spec/20_memory.md R50, R52) -/

/-- What an address reads as that no cell lists: a byte that nothing has stored (log 1, DESIGN CHOICE). -/
def unlistedByte : Byte := 0x00#8

/-- MemRead(a, 1), the engine's only memory access (20_memory R52). -/
def Memory.read : Memory → Nat → Byte
  | [], _ => unlistedByte
  | (k, v) :: rest, a => if k = a then v else Memory.read rest a

/-- One cell in front of a memory, or none where the byte is what an unlisted address reads as. -/
def consCell (a : Nat) (b : Byte) (m : Memory) : Memory := if b = unlistedByte then m else (a, b) :: m

/-- A store of one byte by a host or another agent; the engine itself has no MemWrite (20_memory R52). -/
def Memory.write : Memory → Nat → Byte → Memory
  | [], a, b => consCell a b []
  | (k, v) :: rest, a, b =>
    if a < k then consCell a b ((k, v) :: rest)
    else if a = k then consCell a b rest
    else (k, v) :: Memory.write rest a b

/-- The canonical form from address `lo` on: addresses strictly rising, inside the buffer space, no cell that holds what an
unlisted address reads as. -/
def Memory.wfFrom : Nat → Memory → Bool
  | _, [] => true
  | lo, (k, v) :: rest =>
    decide (lo ≤ k) && decide (k < Config.bufferSpace) && v != unlistedByte && Memory.wfFrom (k + 1) rest

/-- The canonical form of a memory. -/
def Memory.wf (m : Memory) : Bool := Memory.wfFrom 0 m

/-! ### The platform's parameters (20_memory R51, R59; 10_state R32) -/

/-- Is the address in the range? -/
def Range.contains (r : Range) (a : Nat) : Bool := decide (r.base ≤ a) && decide (a < r.base + r.size)

/-- Do two ranges share an address of the buffer space? -/
def Range.meets (r q : Range) : Bool :=
  decide (max r.base q.base < min (min (r.base + r.size) (q.base + q.size)) Config.bufferSpace)

/-- CRC_BASE, a multiple of 64 (10_state R32). -/
def Platform.crcBase (p : Platform) : Nat := Config.windowBytes * p.crcBlock

/-- The register window (10_state R32). -/
def Platform.window (p : Platform) : Range := { base := p.crcBase, size := Config.windowBytes }

/-- Readable(a), for a in 0 .. 2^32-1 (20_memory R51). -/
def Platform.readable (p : Platform) (a : Nat) : Bool :=
  decide (a < Config.bufferSpace) && p.readableRanges.any (fun r => r.contains a)

/-- Reading the address has side effects (20_memory R59). -/
def Platform.hasSideEffect (p : Platform) (a : Nat) : Bool := p.sideEffectRanges.any (fun r => r.contains a)

/-- Why a model refuses the platform, if it does (60_exceptions R168): its `Readable` covers the register window, or memory with
read side effects. -/
def Platform.objection (p : Platform) : Option Refusal :=
  if p.readableRanges.any (fun r => r.meets p.window) then some .readableCoversWindow
  else if p.readableRanges.any (fun r => p.sideEffectRanges.any (fun q => r.meets q)) then some .readableHasSideEffects
  else none

/-! ### Which register an access addresses (10_state R32, R35) -/

/-- The register at an aligned offset of the window (10_state R32). -/
def regAt (offset : Nat) : Reg :=
  match offset with
  | 0x00 => .cmd
  | 0x04 => .addr
  | 0x08 => .len
  | 0x0C => .result
  | 0x10 => .status
  | 0x14 => .finfo
  | _ => .reserved

/-- What an access of `bytes` bytes at a platform address addresses. An access that is not aligned or not 32-bit and touches a
byte of the window has no meaning (10_state R35; log 19, 21). -/
def Platform.target (p : Platform) (addr bytes : Nat) : Target :=
  if p.window.contains addr && addr % 4 == 0 && bytes == 4 then .register (regAt (addr - p.crcBase))
  else if decide (addr < p.crcBase + Config.windowBytes) && decide (p.crcBase < addr + max bytes 1) then .misaccess
  else .outside

/-! ### Taking a fault, and the one way out of it -/

/-- The halted mode (10_state R30). -/
def State.halted (s : State) : Bool := s.status.fault

/-- `raise Fault(cause, info)` (60_exceptions R161): FAULT, CAUSE and FINFO are written and nothing else. -/
def State.raise (c : Cause) (info : Word) (s : State) : State :=
  { s with status := statusOnFault c s.status, finfo := info }

/-- Reset (70_reset R190, 10_state R37): every register at its reset value, which ends the halted mode. The buffer memory, the
platform, and the accesses served and to be served are not the engine's and stay (log 20). -/
def State.applyReset (s : State) : State :=
  { s with
    addr := State.reset.addr, len := State.reset.len, result := State.reset.result
    status := State.reset.status, finfo := State.reset.finfo }

/-! ### The end of a successful command -/

/-- The last three lines of 41_kernels R127 (and of 40_tables R104): RESULT and STATUS.VALID are written and nothing else. -/
def State.complete (raw out : Half) (s : State) : State :=
  { s with result := { raw := raw, out := out }, status := statusOnSuccess s.status }

/-! ### The registers as the host sees them -/

/-- What an aligned 32-bit read returns (10_state R21 to R26, R33). CMD and the reserved offsets read 0. -/
def State.readReg (s : State) : Reg → Word
  | .cmd => 0#32
  | .addr => s.addr
  | .len => s.len
  | .result => resultWord s.result
  | .status => statusWord s.status
  | .finfo => s.finfo
  | .reserved => 0#32

/-- The byte view of the window, little-endian (20_memory R55): the byte at CRC_BASE + offset. -/
def State.windowByte (s : State) (offset : Nat) : Byte :=
  (s.readReg (regAt (4 * (offset / 4)))).extractLsb' (8 * (offset % 4)) 8

/-- A host read: the value is returned and nothing else changes. -/
def State.reply (v : Word) (s : State) : State := { s with replies := v :: s.replies }

/-- A write of ADDR (10_state R21). -/
def State.setAddr (v : Word) (s : State) : State := { s with addr := v }

/-- A write of LEN (10_state R22). -/
def State.setLen (v : Word) (s : State) : State := { s with len := v }

/-- A store of one byte into the buffer memory. -/
def State.storeByte (a : Word) (b : Byte) (s : State) : State := { s with mem := s.mem.write a.toNat b }

/-- The platform's new `Readable` (20_memory R51). -/
def State.setReadable (ranges : List Range) (s : State) : State :=
  { s with platform := { s.platform with readableRanges := ranges } }

/-- What is left to serve. -/
def State.withPending (inputs : List Input) (s : State) : State := { s with pending := inputs }

end Sys2Proof.Machine
end

