-- ==== Sys2Proof/Machine/Kernels.lean ====
section
/-! DEFINITION. The step functions and the two update kernels of spec/41_kernels.md, and the two other readings that R124 and R130
relate them to (truncation deferred to the end; bit-serial). -/

namespace Sys2Proof.Machine

/-- StepR(t, c, b), reflected (41_kernels R120). -/
def stepR (t : Table) (c : Half) (b : Byte) : Half :=
  tableEntry t (((c ^^^ b.setWidth 16) &&& 0x00FF#16).setWidth 8) ^^^ (c >>> 8)

/-- StepU(t, c, b), unreflected; the left shift of a 16-bit value is truncated to 16 bits (41_kernels R121). -/
def stepU (t : Table) (c : Half) (b : Byte) : Half :=
  tableEntry t ((((c >>> 8) ^^^ b.setWidth 16) &&& 0x00FF#16).setWidth 8) ^^^ (c <<< 8)

/-- KernelR(t, s, B) (41_kernels R122). The accumulator is the working register crc of 10_state R28 (log 18). -/
def kernelR (t : Table) (s : Half) (bytes : List Byte) : Half := bytes.foldl (stepR t) s

/-- KernelU(t, s, B) (41_kernels R123). -/
def kernelU (t : Table) (s : Half) (bytes : List Byte) : Half := bytes.foldl (stepU t) s

/-! ### Readings the kernels are compared with (no step of the machine calls them) -/

/-- The loop body of R124's second reading: an unbounded value, no truncation of the shift. -/
def wideStepU (t : Table) (c : Nat) (b : Byte) : Nat :=
  (tableEntry t (BitVec.ofNat 8 (((c >>> 8) ^^^ b.toNat) &&& 0xFF))).toNat ^^^ (c <<< 8)

/-- The unreflected kernel with the truncation deferred to the end (41_kernels R124). -/
def deferredKernelU (t : Table) (s : Half) (bytes : List Byte) : Half :=
  BitVec.ofNat 16 (bytes.foldl (wideStepU t) s.toNat)

/-- The bit-serial reflected step: XOR the byte in, then 8 right shifts (41_kernels R130). -/
def bitSerialR (p c : Half) (b : Byte) : Half := repeatStep (bitStepR (rev16 p)) 8 (c ^^^ b.setWidth 16)

/-- The bit-serial unreflected step: XOR the byte in at bits 15:8, then 8 left shifts (41_kernels R130). -/
def bitSerialU (p c : Half) (b : Byte) : Half := repeatStep (bitStepU p) 8 (c ^^^ (b.setWidth 16 <<< 8))

end Sys2Proof.Machine
end

