-- ==== Sys2Proof/Machine/Operands.lean ====
section
/-! DEFINITION. The operand forms of the commands: the buffer that ADDR and LEN name and its bounds check (spec/20_memory.md R51,
R53, R57), the table a select names (spec/30_encoding.md R72), and the binding of a buffer command (spec/42_variants.md R140). -/

namespace Sys2Proof.Machine

/-! ### The buffer operand -/

/-- The range A .. A + n - 1 is admitted (20_memory R57): it ends at 2^32 at the latest, computed without truncation, and every
byte of it is `Readable`. -/
def Platform.admits (p : Platform) (a n : Nat) : Bool :=
  decide (a + n ≤ Config.bufferSpace) && (List.range n).all (fun i => p.readable (a + i))

/-- The buffer that ADDR and LEN name is admitted. -/
def State.rangeAdmitted (s : State) : Bool := s.platform.admits s.addr.toNat s.len.toNat

/-- The buffer command's range check succeeds: LEN = 0 checks nothing (20_memory R58). -/
def State.bufferOk (s : State) : Bool := s.len == 0#32 || s.rangeAdmitted

/-- n bytes from address a on, in increasing order, each read once (20_memory R53). -/
def Memory.bytes (m : Memory) (a n : Nat) : List Byte := (List.range n).map (fun i => m.read (a + i))

/-- B = [MemRead(A + i, 1) for i in 0..n-1] (42_variants section 2). -/
def State.buffer (s : State) : List Byte := s.mem.bytes s.addr.toNat s.len.toNat

/-! ### The binding of a buffer command (42_variants R140) -/

/-- The two kernels. -/
inductive Kernel where
  | reflected | unreflected
deriving DecidableEq, Repr

/-- The variant descriptor: kernel, table, initial value, output mask. -/
structure Binding where
  kernel : Kernel
  table : Table
  init : Half
  xorout : Half
deriving DecidableEq, Repr

/-- The raw result of a binding over a buffer (41_kernels R127, the loop). -/
def Binding.raw (b : Binding) (bytes : List Byte) : Half :=
  match b.kernel with
  | .reflected => kernelR b.table b.init bytes
  | .unreflected => kernelU b.table b.init bytes

/-! ### The shared bodies of the commands -/

/-- A buffer command with its binding (41_kernels R127): ignored while halted; BOUNDS with FINFO = ADDR before any read; else RAW
is the kernel's result and OUT is RAW XOR mask (42_variants R147). -/
def runBuffer (b : Binding) (s : State) : State :=
  if s.halted then s
  else if !s.bufferOk then s.raise .bounds s.addr
  else s.complete (b.raw s.buffer) (b.raw s.buffer ^^^ b.xorout)

/-- A command that selects a table: ignored while halted; BAD_TSEL with FINFO = w for a select that names no table (60_exceptions
R160, before the range check by R163); else `run` with the table. The decoder lets no such select through (30_encoding R79), so
BAD_TSEL is raised here only for an instruction that is not well-formed (log 14). -/
def withTable (i : Instr) (tsel : BitVec 3) (run : Table → State → State) (s : State) : State :=
  if s.halted then s
  else match tableOfTsel tsel with
    | none => s.raise .badTsel (encode i)
    | some t => run t s

end Sys2Proof.Machine
end

