-- ==== Sys2Proof/Machine/KernelCommands.lean ====
section
/-! DEFINITION. KREF and KUNREF (spec/41_kernels.md R128, R129): a kernel with a caller-chosen table, whatever its bit order
(R131), and seed. -/

namespace Sys2Proof.Machine

/-- KREF (41_kernels R128). -/
def execKref (tsel : BitVec 3) (seed : Half) (s : State) : Host.Outcome State Fault Refusal :=
  .next (withTable (.kref tsel seed) tsel (fun t => runBuffer ⟨.reflected, t, seed, 0x0000#16⟩) s)

/-- KUNREF (41_kernels R129). -/
def execKunref (tsel : BitVec 3) (seed : Half) (s : State) : Host.Outcome State Fault Refusal :=
  .next (withTable (.kunref tsel seed) tsel (fun t => runBuffer ⟨.unreflected, t, seed, 0x0000#16⟩) s)

end Sys2Proof.Machine
end

