-- ==== Sys2Proof/Machine/TableRead.lean ====
section
/-! DEFINITION. TBLRD (spec/40_tables.md R104): one table entry into both halves of RESULT; ADDR and LEN are not read. -/

namespace Sys2Proof.Machine

/-- TBLRD (40_tables R104). -/
def execTblrd (tsel : BitVec 3) (index : Byte) (s : State) : Host.Outcome State Fault Refusal :=
  .next (withTable (.tblrd tsel index) tsel (fun t s => s.complete (tableEntry t index) (tableEntry t index)) s)

end Sys2Proof.Machine
end

