-- ==== Sys2Proof/Machine/Variants.lean ====
section
/-! DEFINITION. The six named variants (spec/42_variants.md R140 to R146): each a buffer command with a frozen binding. -/

namespace Sys2Proof.Machine

/-- CCITT (42_variants R141). -/
def execCcitt (s : State) : Host.Outcome State Fault Refusal :=
  .next (runBuffer ⟨.reflected, .ccittReverse, 0xFFFF#16, 0xFFFF#16⟩ s)

/-- CCITT_SEED (42_variants R142; the mask by 90_conflicts C1, log 11). -/
def execCcittSeed (seed : Half) (s : State) : Host.Outcome State Fault Refusal :=
  .next (runBuffer ⟨.reflected, .ccittReverse, seed, Config.ccittSeedXorout⟩ s)

/-- X25_CCITT (42_variants R143; no mask by 90_conflicts C4). -/
def execX25Ccitt (s : State) : Host.Outcome State Fault Refusal :=
  .next (runBuffer ⟨.unreflected, .ccittForward, 0xFFFF#16, 0x0000#16⟩ s)

/-- CRC16_5935 (42_variants R144). -/
def execCrc16p5935 (seed : Half) (s : State) : Host.Outcome State Fault Refusal :=
  .next (runBuffer ⟨.unreflected, .p5935, seed, 0x0000#16⟩ s)

/-- CRC16_755B (42_variants R145). -/
def execCrc16p755B (seed : Half) (s : State) : Host.Outcome State Fault Refusal :=
  .next (runBuffer ⟨.unreflected, .p755B, seed, 0x0000#16⟩ s)

/-- CRC16_9949_SEED (42_variants R146). -/
def execCrc16p9949Seed (seed : Half) (s : State) : Host.Outcome State Fault Refusal :=
  .next (runBuffer ⟨.reflected, .p9949Reverse, seed, 0x0000#16⟩ s)

end Sys2Proof.Machine
end

