-- ==== Sys2Proof/Machine/Dispatch.lean ====
section
/-! DEFINITION. One arm for each instruction: the meaning it calls. -/

namespace Sys2Proof.Machine

def exec (i : Instr) (s : State) : Host.Outcome State Fault Refusal :=
  match i with
  | .ccitt => Sys2Proof.Machine.execCcitt s
  | .ccittSeed seed => Sys2Proof.Machine.execCcittSeed seed s
  | .x25Ccitt => Sys2Proof.Machine.execX25Ccitt s
  | .crc16p5935 seed => Sys2Proof.Machine.execCrc16p5935 seed s
  | .crc16p755B seed => Sys2Proof.Machine.execCrc16p755B seed s
  | .crc16p9949Seed seed => Sys2Proof.Machine.execCrc16p9949Seed seed s
  | .kref tsel seed => Sys2Proof.Machine.execKref tsel seed s
  | .kunref tsel seed => Sys2Proof.Machine.execKunref tsel seed s
  | .tblrd tsel index => Sys2Proof.Machine.execTblrd tsel index s

end Sys2Proof.Machine
end

