-- ==== Sys2Proof/Machine/HostAccess.lean ====
section
/-! DEFINITION. What one host access or platform event does (spec/10_state.md R21 to R35, spec/70_reset_and_hazards.md R190), a
write of CMD among them (spec/41_kernels.md R127), and the host's notation for accesses and pseudo-commands
(spec/30_encoding.md R80, R81). -/

namespace Sys2Proof.Machine

/-- A host write of w to CMD (41_kernels R127): ignored while halted; a decode fault is taken with FINFO = w; else the command
runs. -/
def issue (w : Word) (s : State) : Host.Outcome State Fault Refusal :=
  if s.halted then .next s
  else match decode w with
    | .fault c => .next (s.raise c w)
    | .instr i => exec i s

/-- An aligned 32-bit host write (10_state R21 to R23, R30, R33, R34): ignored while halted; RESULT, STATUS, FINFO and the
reserved offsets ignore it always. -/
def writeReg (r : Reg) (v : Word) (s : State) : Host.Outcome State Fault Refusal :=
  if s.halted then .next s
  else match r with
    | .cmd => issue v s
    | .addr => .next (s.setAddr v)
    | .len => .next (s.setLen v)
    | .result | .status | .finfo | .reserved => .next s

/-- A host read at a target. -/
def serveRead (t : Target) (s : State) : Host.Outcome State Fault Refusal :=
  match t with
  | .register r => .next (s.reply (s.readReg r))
  | .misaccess => .refused .badWindowAccess
  | .outside => .refused .outsideWindow

/-- A host write at a target. -/
def serveWrite (t : Target) (v : Word) (s : State) : Host.Outcome State Fault Refusal :=
  match t with
  | .register r => writeReg r v s
  | .misaccess => .refused .badWindowAccess
  | .outside => .refused .outsideWindow

/-- A byte store: into the buffer memory, unless it addresses the register window, which takes no 8-bit access (10_state R35;
log 9). -/
def serveStore (a : Word) (b : Byte) (s : State) : Host.Outcome State Fault Refusal :=
  if s.platform.window.contains a.toNat then .refused .badWindowAccess else .next (s.storeByte a b)

/-- The platform's new `Readable`: a run that comes to one covering the register window or memory with read side effects is refused
there and then (60_exceptions R168; log 16). -/
def serveSetReadable (ranges : List Range) (s : State) : Host.Outcome State Fault Refusal :=
  match (s.setReadable ranges).platform.objection with
  | some r => .refused r
  | none => .next (s.setReadable ranges)

/-- One access or event. -/
def serve (x : Input) (s : State) : Host.Outcome State Fault Refusal :=
  match x with
  | .read addr bytes => serveRead (s.platform.target addr bytes) s
  | .write addr bytes v => serveWrite (s.platform.target addr bytes) v s
  | .store a b => serveStore a b s
  | .setReadable ranges => serveSetReadable ranges s
  | .reset => .next s.applyReset

/-! ### The host's notation (30_encoding R80, R81) -/

/-- The offsets of the named registers (10_state R32); of the reserved ones, the first. -/
def regOffset : Reg → Nat
  | .cmd => 0x00
  | .addr => 0x04
  | .len => 0x08
  | .result => 0x0C
  | .status => 0x10
  | .finfo => 0x14
  | .reserved => 0x18

/-- `WR <reg>, <value>`: an aligned 32-bit host write (30_encoding R80). -/
def Platform.wr (p : Platform) (r : Reg) (v : Word) : Input := .write (p.crcBase + regOffset r) 4 v

/-- `RD <reg>`: an aligned 32-bit host read (30_encoding R80). -/
def Platform.rd (p : Platform) (r : Reg) : Input := .read (p.crcBase + regOffset r) 4

/-- `WR CMD, <mnemonic operands>`: a write of the assembled word (30_encoding R80). -/
def Platform.command (p : Platform) (i : Instr) : Input := p.wr .cmd (encode i)

/-- The pseudo-command `CRC <mnemonic operands> <buf A, n>` (30_encoding R81). -/
def Platform.crcSequence (p : Platform) (i : Instr) (a n : Word) : List Input :=
  [p.wr .addr a, p.wr .len n, p.command i]

/-- The pseudo-command `CCITT_RAW seed` (30_encoding R81). -/
def ccittRaw (seed : Half) : Instr := .kref (tselOfTable .ccittReverse) seed

/-- The pseudo-command `X25_CCITT_SEED seed` (30_encoding R81). -/
def x25CcittSeed (seed : Half) : Instr := .kunref (tselOfTable .ccittForward) seed

/-- The pseudo-command `TBLCHK tsel` (30_encoding R81). -/
def Platform.tblchk (p : Platform) (tsel : BitVec 3) : List Input :=
  (List.range 256).map (fun k => p.command (.tblrd tsel (BitVec.ofNat 8 k)))

end Sys2Proof.Machine
end

