-- ==== Sys2Proof/Machine/Step.lean ====
section
/-! DEFINITION. One step of the machine: it serves the oldest host access or platform event (spec/20_memory.md R61). The engine
fetches no instruction (spec/20_memory.md R63): a command arrives as a write of CMD. -/

namespace Sys2Proof.Machine

/-- One step. A platform the spec gives no meaning is refused (60_exceptions R168; log 16); with nothing to serve the engine waits
(70_reset R192; log 6); else the oldest access or event is served, a whole command in one step (20_memory R60). -/
def step (s : State) : Host.Outcome State Fault Refusal :=
  match s.platform.objection with
  | some r => .refused r
  | none =>
    match s.pending with
    | [] => .next s
    | x :: rest => serve x (s.withPending rest)

/-- `s` with a host write of the word to CMD arrived in front of all others: the engine has no instruction memory, and the CMD
write is how it is given a command (10_state R29; log 5). -/
def State.withFetchWord (s : State) (nbits w : Nat) : State :=
  s.withPending (s.platform.wr .cmd (tableWord nbits w) :: s.pending)

end Sys2Proof.Machine
end

