-- ==== Sys2Proof/Safety.lean ====
section
/-! DEFINITION. What a safe run is, in the terms that claims use (spec/70_reset_and_hazards.md R195, R200), and the invariant of the
machine. -/

namespace Sys2Proof.Machine

/-- The platform is one the spec gives a meaning (60_exceptions R168). -/
def PlatformOk (s : State) : Prop := s.platform.objection = none

/-- The run of 70_reset R200 ends in `t`: all that has arrived is served, and nothing is refused, neither the platform the run
starts on (which matters where nothing has arrived; 60_exceptions R168) nor a step. -/
def RunEnds (s t : State) : Prop := PlatformOk s ∧ Sys2Proof.core.run s.pending.length s = .next t

/-- A run that is neither refused nor faulted (70_reset R200). -/
def CleanRun (s t : State) : Prop := RunEnds s t ∧ t.halted = false

/-- RESULT may be read as a checksum only then (70_reset R195). -/
def ResultHolds (s : State) : Prop := s.status.valid = true ∧ s.status.fault = false

/-- The buffer that ADDR and LEN name passes the range check, in the spec's own terms: LEN = 0 (20_memory R58), or ADDR + LEN is at
most 2^32, computed without truncation, and every byte of the range is `Readable` (20_memory R57). -/
def RangeOk (s : State) : Prop :=
  s.len = 0#32 ∨ (s.addr.toNat + s.len.toNat ≤ 4294967296 ∧
    ∀ i, i < s.len.toNat → s.platform.readable (s.addr.toNat + i) = true)

/-- An access or event that the spec gives a meaning on this platform: an aligned 32-bit access to the register window (10_state
R35), a store outside the window, a `Readable` that covers neither the window nor memory with read side effects (20_memory R59),
or reset. -/
def InputOk (p : Platform) : Input → Prop
  | .read addr bytes => ∃ offset, offset < 64 ∧ offset % 4 = 0 ∧ addr = p.crcBase + offset ∧ bytes = 4
  | .write addr bytes _ => ∃ offset, offset < 64 ∧ offset % 4 = 0 ∧ addr = p.crcBase + offset ∧ bytes = 4
  | .store a _ => p.window.contains a.toNat = false
  | .setReadable ranges => ({ p with readableRanges := ranges } : Platform).objection = none
  | .reset => True

/-- CAUSE and FINFO tell why the engine halted (60_exceptions R160): for BOUNDS, FINFO is the ADDR of a command with LEN > 0; for
a decode fault, FINFO is a word that the decoder rejects with just this cause. -/
def faultRecordExplained (s : State) : Bool :=
  (s.status.cause == causeCode .bounds && s.finfo == s.addr && s.len != 0#32)
    || (match decode s.finfo with
        | .fault c => s.status.cause == causeCode c
        | .instr _ => false)

/-- The invariant that every step keeps. -/
structure EngineInv (s : State) : Prop where
  /-- The buffer memory is in its canonical form. -/
  memory_canonical : s.mem.wf = true
  /-- CAUSE and FINFO are 0 while FAULT = 0 (10_state R25, R26). -/
  no_record_while_running : s.status.fault = false → s.status.cause = 0#4 ∧ s.finfo = 0#32
  /-- A halted engine's record is that of the fault that halted it (60_exceptions R162). -/
  record_while_halted : s.status.fault = true → faultRecordExplained s = true
  /-- RESULT is 0 until a command has succeeded (10_state R24, R25). -/
  no_result_before_valid : s.status.valid = false → s.result = ⟨0#16, 0#16⟩

end Sys2Proof.Machine
end

