-- ==== Sys2Proof/Certificates/Slice0/Obligations.lean ====
section
/-! DEFINITION. The statements for the provers. Each docstring names the rules of spec/ that its statement formalises. Record
updates are written out, so that a statement says of every field of the state whether it changes. -/

open Sys2Proof Sys2Proof.Machine

/-- The bytes of "123456789", the check string of 95_test_vectors. -/
def Sys2Proof.Machine.checkString : List Byte :=
  [0x31#8, 0x32#8, 0x33#8, 0x34#8, 0x35#8, 0x36#8, 0x37#8, 0x38#8, 0x39#8]

/-! ### Reset -/

/-- 10_state R37: the register values after reset. -/
def Obligations.ResetStateHoldsTheResetValues : Prop :=
  State.reset.addr = 0x00000000#32 ∧ State.reset.len = 0x00000000#32 ∧
  State.reset.result = { raw := 0x0000#16, out := 0x0000#16 } ∧
  State.reset.status = { valid := false, fault := false, cause := 0#4 } ∧
  State.reset.finfo = 0x00000000#32 ∧ State.reset.halted = false ∧
  resultWord State.reset.result = 0#32 ∧ statusWord State.reset.status = 0#32

/-- 70_reset R190: reset sets every register to 0, whatever the engine was doing and whatever memory holds, and so ends the halted
mode and clears VALID; that what is not the engine's stays is the model's reading (log 20). -/
def Obligations.ResetEventRestoresEveryRegister : Prop :=
  ∀ (s : State) (rest : List Input), PlatformOk s → s.pending = .reset :: rest →
    ∃ t, step s = .next t ∧
      t = { s with
        addr := 0#32, len := 0#32, result := { raw := 0#16, out := 0#16 }
        status := { valid := false, fault := false, cause := 0#4 }, finfo := 0#32, pending := rest } ∧
      t.halted = false ∧ t.status.valid = false

/-! ### Decoding -/

/-- 30_encoding R71, R74: words written out from the spec's bit patterns decode to the commands they stand for. -/
def Obligations.SpecWordsDecodeToTheirCommands : Prop :=
  decode 0b00000000000000000000000000000001#32 = .instr .ccitt ∧
  decode 0b00010010001101000000000000000010#32 = .instr (.ccittSeed 0x1234#16) ∧
  decode 0b00000000000000000000000000000011#32 = .instr .x25Ccitt ∧
  decode 0b11111111111111110000000000000100#32 = .instr (.crc16p5935 0xFFFF#16) ∧
  decode 0b00000000000000010000000000000101#32 = .instr (.crc16p755B 0x0001#16) ∧
  decode 0b10000000000000000000000000000110#32 = .instr (.crc16p9949Seed 0x8000#16) ∧
  decode 0b11111111111111110000010000010000#32 = .instr (.kref 4#3 0xFFFF#16) ∧
  decode 0b00011101000011110000000100010001#32 = .instr (.kunref 1#3 0x1D0F#16) ∧
  decode 0b00000000100000000000001100100000#32 = .instr (.tblrd 3#3 0x80#8)

/-- 30_encoding R75, R79: decoding the assembled word of a well-formed command, with any operands, gives the command back. -/
def Obligations.DecodeOfEncodeIsTheCommand : Prop :=
  ∀ i : Instr, WellFormed i → decode (encode i) = .instr i

/-- 30_encoding R75, R79: a word the decoder accepts is the assembled word of the command it yields, which is well-formed; so each
command has one word and each accepted word one meaning. -/
def Obligations.EncodeOfDecodeIsTheWord : Prop :=
  ∀ (w : Word) (i : Instr), decode w = .instr i → encode i = w ∧ WellFormed i

/-- 30_encoding R75: the table of match and mask values; an operation is selected by them once the table select is legal, and a
word with the right OPC that fails its mask is a RESERVED_FIELD fault. -/
def Obligations.MatchAndMaskSelectTheOperation : Prop :=
  (∀ (op : Opcode) (w : Word), (∃ i, decode w = .instr i ∧ i.opcode = op) ↔
    (w &&& op.maskBits = op.matchBits ∧ (op.usesTsel = true → (w.extractLsb' 8 3).toNat ≤ 4))) ∧
  (∀ (op : Opcode) (w : Word), w.extractLsb' 0 8 = op.code → w &&& op.maskBits ≠ op.matchBits →
    decode w = .fault .reservedField) ∧
  (Opcode.ccitt.matchBits = 0x00000001#32 ∧ Opcode.ccitt.maskBits = 0xFFFFFFFF#32) ∧
  (Opcode.ccittSeed.matchBits = 0x00000002#32 ∧ Opcode.ccittSeed.maskBits = 0x0000FFFF#32) ∧
  (Opcode.x25Ccitt.matchBits = 0x00000003#32 ∧ Opcode.x25Ccitt.maskBits = 0xFFFFFFFF#32) ∧
  (Opcode.crc16p5935.matchBits = 0x00000004#32 ∧ Opcode.crc16p5935.maskBits = 0x0000FFFF#32) ∧
  (Opcode.crc16p755B.matchBits = 0x00000005#32 ∧ Opcode.crc16p755B.maskBits = 0x0000FFFF#32) ∧
  (Opcode.crc16p9949Seed.matchBits = 0x00000006#32 ∧ Opcode.crc16p9949Seed.maskBits = 0x0000FFFF#32) ∧
  (Opcode.kref.matchBits = 0x00000010#32 ∧ Opcode.kref.maskBits = 0x0000F8FF#32) ∧
  (Opcode.kunref.matchBits = 0x00000011#32 ∧ Opcode.kunref.maskBits = 0x0000F8FF#32) ∧
  (Opcode.tblrd.matchBits = 0x00000020#32 ∧ Opcode.tblrd.maskBits = 0xFF00F8FF#32)

/-- 30_encoding R75: no word matches the rows of two operations. -/
def Obligations.NoWordMatchesTwoOperations : Prop :=
  ∀ (w : Word) (op op' : Opcode), w &&& op.maskBits = op.matchBits → w &&& op'.maskBits = op'.matchBits → op = op'

/-- 30_encoding R76: every other OPC value, 247 of them with 0x00 among them, is illegal, and its command faults. -/
def Obligations.UndefinedOpcodesFaultIllegal : Prop :=
  (∀ w : Word, decode w = .fault .illegalOpcode ↔
    w.extractLsb' 0 8 ∉ [0x01#8, 0x02#8, 0x03#8, 0x04#8, 0x05#8, 0x06#8, 0x10#8, 0x11#8, 0x20#8]) ∧
  (∀ (w : Word) (s : State), s.halted = false →
    w.extractLsb' 0 8 ∉ [0x01#8, 0x02#8, 0x03#8, 0x04#8, 0x05#8, 0x06#8, 0x10#8, 0x11#8, 0x20#8] →
    issue w s = .next { s with status := { s.status with fault := true, cause := 1#4 }, finfo := w }) ∧
  ((List.range 256).filter (fun n => (opcodeOf (BitVec.ofNat 8 n)).isNone)).length = 247 ∧
  decode 0x00000000#32 = .fault .illegalOpcode

/-- 30_encoding R73: the table select names the tables in the order of the source; 5, 6 and 7 name none and fault BAD_TSEL. -/
def Obligations.TableSelectNamesTheTables : Prop :=
  tableOfTsel 0#3 = some .ccittReverse ∧ tableOfTsel 1#3 = some .ccittForward ∧ tableOfTsel 2#3 = some .p5935 ∧
  tableOfTsel 3#3 = some .p755B ∧ tableOfTsel 4#3 = some .p9949Reverse ∧
  (polynomial .ccittReverse = 0x1021#16 ∧ isReflected .ccittReverse = true) ∧
  (polynomial .ccittForward = 0x1021#16 ∧ isReflected .ccittForward = false) ∧
  (polynomial .p5935 = 0x5935#16 ∧ isReflected .p5935 = false) ∧
  (polynomial .p755B = 0x755B#16 ∧ isReflected .p755B = false) ∧
  (polynomial .p9949Reverse = 0x9949#16 ∧ isReflected .p9949Reverse = true) ∧
  (∀ tsel : BitVec 3, 5 ≤ tsel.toNat → tableOfTsel tsel = none) ∧
  (∀ (w : Word) (s : State), s.halted = false → w.extractLsb' 0 8 ∈ [0x10#8, 0x11#8, 0x20#8] →
    w.extractLsb' 11 5 = 0#5 → (w.extractLsb' 0 8 = 0x20#8 → w.extractLsb' 24 8 = 0#8) →
    5 ≤ (w.extractLsb' 8 3).toNat →
    issue w s = .next { s with status := { s.status with fault := true, cause := 3#4 }, finfo := w })

/-! ### Faults -/

/-- 60_exceptions R161: a command that faults writes STATUS.FAULT, STATUS.CAUSE and FINFO and nothing else, with the command word in
FINFO for a decode fault and ADDR for BOUNDS. -/
def Obligations.FaultEntryWritesThreeFields : Prop :=
  ∀ (w : Word) (s t : State), s.halted = false → issue w s = .next t → t.halted = true →
    ∃ (code : BitVec 4) (info : Word),
      t = { s with status := { s.status with fault := true, cause := code }, finfo := info } ∧
      ((code ∈ [1#4, 2#4, 3#4] ∧ info = w) ∨ (code = 4#4 ∧ info = s.addr))

/-- 60_exceptions R160, R163: which fault a command word raises in a running engine, in the order of priority, with what FINFO
receives; and when it raises none. The conditions are the spec's, on the bits of the word. -/
def Obligations.FirstApplicableFaultIsReported : Prop :=
  ∀ (w : Word) (s : State), s.halted = false →
    let opc := w.extractLsb' 0 8
    let defined := opc ∈ [0x01#8, 0x02#8, 0x03#8, 0x04#8, 0x05#8, 0x06#8, 0x10#8, 0x11#8, 0x20#8]
    let reserved := w.extractLsb' 11 5 ≠ 0#5 ∨
      (opc ∈ [0x01#8, 0x02#8, 0x03#8, 0x04#8, 0x05#8, 0x06#8] ∧ w.extractLsb' 8 3 ≠ 0#3) ∨
      (opc ∈ [0x01#8, 0x03#8] ∧ w.extractLsb' 16 16 ≠ 0#16) ∨ (opc = 0x20#8 ∧ w.extractLsb' 24 8 ≠ 0#8)
    let badTsel := opc ∈ [0x10#8, 0x11#8, 0x20#8] ∧ 4 < (w.extractLsb' 8 3).toNat
    let outOfRange := opc ≠ 0x20#8 ∧ ¬ RangeOk s
    let fault := fun (code : BitVec 4) (info : Word) =>
      { s with status := { s.status with fault := true, cause := code }, finfo := info }
    (¬ defined → issue w s = .next (fault 1#4 w)) ∧
    (defined → reserved → issue w s = .next (fault 2#4 w)) ∧
    (defined → ¬ reserved → badTsel → issue w s = .next (fault 3#4 w)) ∧
    (defined → ¬ reserved → ¬ badTsel → outOfRange → issue w s = .next (fault 4#4 s.addr)) ∧
    (defined → ¬ reserved → ¬ badTsel → ¬ outOfRange → ∃ raw out, issue w s =
      .next { s with result := { raw := raw, out := out }, status := { s.status with valid := true } })

/-- 60_exceptions R162, R164: while the engine is halted a step changes no register, whatever is served, but for reset. -/
def Obligations.OnlyResetChangesAHaltedEngine : Prop :=
  ∀ s t : State, s.halted = true → step s = .next t →
    (∃ rest, s.pending = .reset :: rest ∧ t.halted = false) ∨
    (t.halted = true ∧ t.status = s.status ∧ t.finfo = s.finfo ∧ t.result = s.result ∧ t.addr = s.addr ∧ t.len = s.len)

/-- 60_exceptions R162: however many steps a halted engine makes, without a reset its registers keep the record of the first fault
and the result of the last successful command. -/
def Obligations.FirstFaultRecordIsKeptUntilReset : Prop :=
  ∀ (k : Nat) (s t : State), s.halted = true → Input.reset ∉ s.pending → Sys2Proof.core.run k s = .next t →
    t.halted = true ∧ t.status = s.status ∧ t.finfo = s.finfo ∧ t.result = s.result ∧ t.addr = s.addr ∧ t.len = s.len

/-! ### The nine commands -/

/-- 42_variants R141, CCITT: encoding, result, faults, corner cases, example. -/
def Obligations.CcittCommand : Prop :=
  (∀ w : Word, decode w = .instr .ccitt ↔ w = 0x00000001#32) ∧
  (∀ s : State, s.halted = false → RangeOk s → exec .ccitt s = .next { s with
      result := {
        raw := kernelR .ccittReverse 0xFFFF#16 s.buffer
        out := kernelR .ccittReverse 0xFFFF#16 s.buffer ^^^ 0xFFFF#16 }
      status := { s.status with valid := true } }) ∧
  (∀ (w : Word) (s : State), s.halted = false → w.extractLsb' 0 8 = 0x01#8 → w.extractLsb' 8 24 ≠ 0#24 →
    issue w s = .next { s with status := { s.status with fault := true, cause := 2#4 }, finfo := w }) ∧
  (∀ s : State, s.halted = false → ¬ RangeOk s → exec .ccitt s =
    .next { s with status := { s.status with fault := true, cause := 4#4 }, finfo := s.addr }) ∧
  (∀ s : State, s.halted = false → s.len = 0#32 → exec .ccitt s = .next { s with
      result := { raw := 0xFFFF#16, out := 0x0000#16 }, status := { s.status with valid := true } }) ∧
  kernelR .ccittReverse 0xFFFF#16 [0x00#8] ^^^ 0xFFFF#16 = 0xF078#16 ∧
  kernelR .ccittReverse 0xFFFF#16 checkString = 0x6F91#16 ∧
  kernelR .ccittReverse 0xFFFF#16 checkString ^^^ 0xFFFF#16 = 0x906E#16

/-- 42_variants R142, CCITT_SEED, with the mask 0xFFFF of 90_conflicts C1: encoding, result, faults, corner cases, example. -/
def Obligations.CcittSeedCommand : Prop :=
  (∀ seed : Half, encode (.ccittSeed seed) = (seed.setWidth 32 <<< 16) ||| 0x02#32 ∧
    decode ((seed.setWidth 32 <<< 16) ||| 0x02#32) = .instr (.ccittSeed seed)) ∧
  (∀ (seed : Half) (s : State), s.halted = false → RangeOk s → exec (.ccittSeed seed) s = .next { s with
      result := {
        raw := kernelR .ccittReverse seed s.buffer
        out := kernelR .ccittReverse seed s.buffer ^^^ 0xFFFF#16 }
      status := { s.status with valid := true } }) ∧
  (∀ (w : Word) (s : State), s.halted = false → w.extractLsb' 0 8 = 0x02#8 → w.extractLsb' 8 8 ≠ 0#8 →
    issue w s = .next { s with status := { s.status with fault := true, cause := 2#4 }, finfo := w }) ∧
  (∀ (seed : Half) (s : State), s.halted = false → ¬ RangeOk s → exec (.ccittSeed seed) s =
    .next { s with status := { s.status with fault := true, cause := 4#4 }, finfo := s.addr }) ∧
  (∀ (seed : Half) (s : State), s.halted = false → s.len = 0#32 → exec (.ccittSeed seed) s = .next { s with
      result := { raw := seed, out := seed ^^^ 0xFFFF#16 }, status := { s.status with valid := true } }) ∧
  0x1234#16 ^^^ 0xFFFF#16 = 0xEDCB#16 ∧
  (∀ s : State, exec (.ccittSeed 0xFFFF#16) s = exec .ccitt s) ∧
  kernelR .ccittReverse 0x0000#16 checkString = 0x2189#16 ∧
  kernelR .ccittReverse 0x0000#16 checkString ^^^ 0xFFFF#16 = 0xDE76#16 ∧
  kernelR .ccittReverse 0xFFFF#16 [0x31#8, 0x32#8, 0x33#8] = 0x634B#16 ∧
  kernelR .ccittReverse 0xFFFF#16 [0x31#8, 0x32#8, 0x33#8] ^^^ 0xFFFF#16 = 0x9CB4#16

/-- 42_variants R143, X25_CCITT: encoding, result, faults, corner cases, example. -/
def Obligations.X25CcittCommand : Prop :=
  (∀ w : Word, decode w = .instr .x25Ccitt ↔ w = 0x00000003#32) ∧
  (∀ s : State, s.halted = false → RangeOk s → exec .x25Ccitt s = .next { s with
      result := {
        raw := kernelU .ccittForward 0xFFFF#16 s.buffer
        out := kernelU .ccittForward 0xFFFF#16 s.buffer }
      status := { s.status with valid := true } }) ∧
  (∀ (w : Word) (s : State), s.halted = false → w.extractLsb' 0 8 = 0x03#8 → w.extractLsb' 8 24 ≠ 0#24 →
    issue w s = .next { s with status := { s.status with fault := true, cause := 2#4 }, finfo := w }) ∧
  (∀ s : State, s.halted = false → ¬ RangeOk s → exec .x25Ccitt s =
    .next { s with status := { s.status with fault := true, cause := 4#4 }, finfo := s.addr }) ∧
  (∀ s : State, s.halted = false → s.len = 0#32 → exec .x25Ccitt s = .next { s with
      result := { raw := 0xFFFF#16, out := 0xFFFF#16 }, status := { s.status with valid := true } }) ∧
  kernelU .ccittForward 0xFFFF#16 [0x00#8] = 0xE1F0#16 ∧
  (∀ message : List Byte, kernelU .ccittForward 0xFFFF#16 (message ++
    [(kernelU .ccittForward 0xFFFF#16 message).extractLsb' 8 8,
     (kernelU .ccittForward 0xFFFF#16 message).extractLsb' 0 8]) = 0x0000#16) ∧
  kernelU .ccittForward 0xFFFF#16 checkString = 0x29B1#16

/-- 42_variants R144, CRC16_5935: encoding, result, faults, corner cases, example. -/
def Obligations.Crc16p5935Command : Prop :=
  (∀ seed : Half, encode (.crc16p5935 seed) = (seed.setWidth 32 <<< 16) ||| 0x04#32 ∧
    decode ((seed.setWidth 32 <<< 16) ||| 0x04#32) = .instr (.crc16p5935 seed)) ∧
  (∀ (seed : Half) (s : State), s.halted = false → RangeOk s → exec (.crc16p5935 seed) s = .next { s with
      result := { raw := kernelU .p5935 seed s.buffer, out := kernelU .p5935 seed s.buffer }
      status := { s.status with valid := true } }) ∧
  (∀ (w : Word) (s : State), s.halted = false → w.extractLsb' 0 8 = 0x04#8 → w.extractLsb' 8 8 ≠ 0#8 →
    issue w s = .next { s with status := { s.status with fault := true, cause := 2#4 }, finfo := w }) ∧
  (∀ (seed : Half) (s : State), s.halted = false → ¬ RangeOk s → exec (.crc16p5935 seed) s =
    .next { s with status := { s.status with fault := true, cause := 4#4 }, finfo := s.addr }) ∧
  (∀ (seed : Half) (s : State), s.halted = false → s.len = 0#32 → exec (.crc16p5935 seed) s = .next { s with
      result := { raw := seed, out := seed }, status := { s.status with valid := true } }) ∧
  kernelU .p5935 0x0000#16 [0x01#8] = 0x5935#16 ∧ tableEntry .p5935 0x01#8 = 0x5935#16 ∧
  kernelU .p5935 0xFFFF#16 checkString = 0x772B#16 ∧ kernelU .p5935 0x0000#16 checkString = 0x5D38#16

/-- 42_variants R145, CRC16_755B: encoding, result, faults, corner cases, example. -/
def Obligations.Crc16p755BCommand : Prop :=
  (∀ seed : Half, encode (.crc16p755B seed) = (seed.setWidth 32 <<< 16) ||| 0x05#32 ∧
    decode ((seed.setWidth 32 <<< 16) ||| 0x05#32) = .instr (.crc16p755B seed)) ∧
  (∀ (seed : Half) (s : State), s.halted = false → RangeOk s → exec (.crc16p755B seed) s = .next { s with
      result := { raw := kernelU .p755B seed s.buffer, out := kernelU .p755B seed s.buffer }
      status := { s.status with valid := true } }) ∧
  (∀ (w : Word) (s : State), s.halted = false → w.extractLsb' 0 8 = 0x05#8 → w.extractLsb' 8 8 ≠ 0#8 →
    issue w s = .next { s with status := { s.status with fault := true, cause := 2#4 }, finfo := w }) ∧
  (∀ (seed : Half) (s : State), s.halted = false → ¬ RangeOk s → exec (.crc16p755B seed) s =
    .next { s with status := { s.status with fault := true, cause := 4#4 }, finfo := s.addr }) ∧
  (∀ (seed : Half) (s : State), s.halted = false → s.len = 0#32 → exec (.crc16p755B seed) s = .next { s with
      result := { raw := seed, out := seed }, status := { s.status with valid := true } }) ∧
  kernelU .p755B 0x0000#16 [0x01#8] = 0x755B#16 ∧
  kernelU .p755B 0xFFFF#16 checkString = 0x375D#16 ∧ kernelU .p755B 0x0000#16 checkString = 0x20FE#16

/-- 42_variants R146, CRC16_9949_SEED: encoding, result, faults, corner cases, example. -/
def Obligations.Crc16p9949SeedCommand : Prop :=
  (∀ seed : Half, encode (.crc16p9949Seed seed) = (seed.setWidth 32 <<< 16) ||| 0x06#32 ∧
    decode ((seed.setWidth 32 <<< 16) ||| 0x06#32) = .instr (.crc16p9949Seed seed)) ∧
  (∀ (seed : Half) (s : State), s.halted = false → RangeOk s → exec (.crc16p9949Seed seed) s = .next { s with
      result := { raw := kernelR .p9949Reverse seed s.buffer, out := kernelR .p9949Reverse seed s.buffer }
      status := { s.status with valid := true } }) ∧
  (∀ (w : Word) (s : State), s.halted = false → w.extractLsb' 0 8 = 0x06#8 → w.extractLsb' 8 8 ≠ 0#8 →
    issue w s = .next { s with status := { s.status with fault := true, cause := 2#4 }, finfo := w }) ∧
  (∀ (seed : Half) (s : State), s.halted = false → ¬ RangeOk s → exec (.crc16p9949Seed seed) s =
    .next { s with status := { s.status with fault := true, cause := 4#4 }, finfo := s.addr }) ∧
  (∀ (seed : Half) (s : State), s.halted = false → s.len = 0#32 → exec (.crc16p9949Seed seed) s = .next { s with
      result := { raw := seed, out := seed }, status := { s.status with valid := true } }) ∧
  kernelR .p9949Reverse 0x0000#16 [0x01#8] = 0x0ED2#16 ∧ tableEntry .p9949Reverse 0x01#8 = 0x0ED2#16 ∧
  kernelR .p9949Reverse 0xFFFF#16 checkString = 0x5EB1#16 ∧ kernelR .p9949Reverse 0x0000#16 checkString = 0x7D01#16

/-- 41_kernels R128, KREF: encoding, result with every table of either bit order (R131), faults in their order, corner cases,
example. -/
def Obligations.KrefCommand : Prop :=
  (∀ (tsel : BitVec 3) (seed : Half),
    encode (.kref tsel seed) = (seed.setWidth 32 <<< 16) ||| (tsel.setWidth 32 <<< 8) ||| 0x10#32 ∧
    (tsel.toNat ≤ 4 → decode ((seed.setWidth 32 <<< 16) ||| (tsel.setWidth 32 <<< 8) ||| 0x10#32) =
      .instr (.kref tsel seed))) ∧
  (∀ (t : Table) (seed : Half) (s : State), s.halted = false → RangeOk s →
    exec (.kref (tselOfTable t) seed) s = .next { s with
      result := { raw := kernelR t seed s.buffer, out := kernelR t seed s.buffer }
      status := { s.status with valid := true } }) ∧
  (∀ tsel : BitVec 3, tsel.toNat ≤ 4 ↔ ∃ t, tsel = tselOfTable t) ∧
  (∀ (w : Word) (s : State), s.halted = false → w.extractLsb' 0 8 = 0x10#8 → w.extractLsb' 11 5 ≠ 0#5 →
    issue w s = .next { s with status := { s.status with fault := true, cause := 2#4 }, finfo := w }) ∧
  (∀ (w : Word) (s : State), s.halted = false → w.extractLsb' 0 8 = 0x10#8 → w.extractLsb' 11 5 = 0#5 →
    4 < (w.extractLsb' 8 3).toNat →
    issue w s = .next { s with status := { s.status with fault := true, cause := 3#4 }, finfo := w }) ∧
  (∀ (t : Table) (seed : Half) (s : State), s.halted = false → ¬ RangeOk s →
    exec (.kref (tselOfTable t) seed) s = .next { s with
      status := { s.status with fault := true, cause := 4#4 }, finfo := s.addr }) ∧
  (∀ (t : Table) (seed : Half) (s : State), s.halted = false → s.len = 0#32 →
    exec (.kref (tselOfTable t) seed) s = .next { s with
      result := { raw := seed, out := seed }, status := { s.status with valid := true } }) ∧
  kernelR .ccittReverse 0xFFFF#16 [0xFF#8] = 0x00FF#16 ∧ kernelR .ccittReverse 0xFFFF#16 checkString = 0x6F91#16

/-- 41_kernels R129, KUNREF: encoding, result with every table of either bit order (R131), faults in their order, corner cases,
example. -/
def Obligations.KunrefCommand : Prop :=
  (∀ (tsel : BitVec 3) (seed : Half),
    encode (.kunref tsel seed) = (seed.setWidth 32 <<< 16) ||| (tsel.setWidth 32 <<< 8) ||| 0x11#32 ∧
    (tsel.toNat ≤ 4 → decode ((seed.setWidth 32 <<< 16) ||| (tsel.setWidth 32 <<< 8) ||| 0x11#32) =
      .instr (.kunref tsel seed))) ∧
  (∀ (t : Table) (seed : Half) (s : State), s.halted = false → RangeOk s →
    exec (.kunref (tselOfTable t) seed) s = .next { s with
      result := { raw := kernelU t seed s.buffer, out := kernelU t seed s.buffer }
      status := { s.status with valid := true } }) ∧
  (∀ tsel : BitVec 3, tsel.toNat ≤ 4 ↔ ∃ t, tsel = tselOfTable t) ∧
  (∀ (w : Word) (s : State), s.halted = false → w.extractLsb' 0 8 = 0x11#8 → w.extractLsb' 11 5 ≠ 0#5 →
    issue w s = .next { s with status := { s.status with fault := true, cause := 2#4 }, finfo := w }) ∧
  (∀ (w : Word) (s : State), s.halted = false → w.extractLsb' 0 8 = 0x11#8 → w.extractLsb' 11 5 = 0#5 →
    4 < (w.extractLsb' 8 3).toNat →
    issue w s = .next { s with status := { s.status with fault := true, cause := 3#4 }, finfo := w }) ∧
  (∀ (t : Table) (seed : Half) (s : State), s.halted = false → ¬ RangeOk s →
    exec (.kunref (tselOfTable t) seed) s = .next { s with
      status := { s.status with fault := true, cause := 4#4 }, finfo := s.addr }) ∧
  (∀ (t : Table) (seed : Half) (s : State), s.halted = false → s.len = 0#32 →
    exec (.kunref (tselOfTable t) seed) s = .next { s with
      result := { raw := seed, out := seed }, status := { s.status with valid := true } }) ∧
  kernelU .ccittForward 0xFFFF#16 [0xFF#8] = 0xFF00#16 ∧
  (∀ (t : Table) (b : Byte), kernelU t 0x0000#16 [b] = tableEntry t b) ∧
  kernelU .ccittForward 0xFFFF#16 checkString = 0x29B1#16

/-- 40_tables R104, TBLRD: encoding, result (whatever ADDR and LEN hold), faults, corner case, example. -/
def Obligations.TblrdCommand : Prop :=
  (∀ (tsel : BitVec 3) (index : Byte),
    encode (.tblrd tsel index) = (index.setWidth 32 <<< 16) ||| (tsel.setWidth 32 <<< 8) ||| 0x20#32 ∧
    (tsel.toNat ≤ 4 → decode ((index.setWidth 32 <<< 16) ||| (tsel.setWidth 32 <<< 8) ||| 0x20#32) =
      .instr (.tblrd tsel index))) ∧
  (∀ (t : Table) (index : Byte) (s : State), s.halted = false →
    exec (.tblrd (tselOfTable t) index) s = .next { s with
      result := { raw := tableEntry t index, out := tableEntry t index }
      status := { s.status with valid := true } }) ∧
  (∀ (w : Word) (s : State), s.halted = false → w.extractLsb' 0 8 = 0x20#8 →
    w.extractLsb' 11 5 ≠ 0#5 ∨ w.extractLsb' 24 8 ≠ 0#8 →
    issue w s = .next { s with status := { s.status with fault := true, cause := 2#4 }, finfo := w }) ∧
  (∀ (w : Word) (s : State), s.halted = false → w.extractLsb' 0 8 = 0x20#8 → w.extractLsb' 11 5 = 0#5 →
    w.extractLsb' 24 8 = 0#8 → 4 < (w.extractLsb' 8 3).toNat →
    issue w s = .next { s with status := { s.status with fault := true, cause := 3#4 }, finfo := w }) ∧
  (∀ (tsel : BitVec 3) (index : Byte) (s : State), s.halted = true → exec (.tblrd tsel index) s = .next s) ∧
  (∀ t : Table, tableEntry t 0x00#8 = 0x0000#16) ∧
  encode (.tblrd 0#3 0x01#8) = 0x00010020#32 ∧ tableEntry .ccittReverse 0x01#8 = 0x1189#16

/-- The model's choice for a term that is no command of the spec (log 14): executing a KREF, KUNREF or TBLRD whose select names no
table takes the BAD_TSEL fault of 60_exceptions R160, with the term's word in FINFO, as the decoder does for that word. -/
def Obligations.IllFormedSelectTakesTheBadTselFault : Prop :=
  ∀ (i : Instr) (s : State), s.halted = false → ¬ WellFormed i →
    exec i s = .next { s with status := { s.status with fault := true, cause := 3#4 }, finfo := encode i } ∧
    issue (encode i) s = exec i s

/-! ### What the commands have in common -/

/-- 10_state R30, 41_kernels R127: a halted engine ignores every command, whatever its word. -/
def Obligations.HaltedEngineIgnoresCommands : Prop :=
  (∀ (i : Instr) (s : State), s.halted = true → exec i s = .next s) ∧
  (∀ (w : Word) (s : State), s.halted = true → issue w s = .next s)

/-- The frame of all nine commands (10_state R21, R22, R24 to R26; 41_kernels R127; 60_exceptions R161). A command changes no
staging register, no byte of memory, nothing of the platform and nothing of what is to be served or was answered; if it does not
fault it writes RESULT and STATUS.VALID at most; if it faults it writes FAULT, CAUSE and FINFO only. -/
def Obligations.CommandFrame : Prop :=
  ∀ (i : Instr) (s t : State), exec i s = .next t →
    t.addr = s.addr ∧ t.len = s.len ∧ (∀ a, t.mem.read a = s.mem.read a) ∧ t.mem = s.mem ∧
    t.platform = s.platform ∧ t.pending = s.pending ∧ t.replies = s.replies ∧
    ((t.status.fault = s.status.fault ∧ t.status.cause = s.status.cause ∧ t.finfo = s.finfo) ∨
     (t.status.fault = true ∧ s.status.fault = false ∧ t.result = s.result ∧ t.status.valid = s.status.valid))

/-- 20_memory R57: a buffer command with LEN > 0 runs exactly on a range that ends at 2^32 at the latest and is `Readable`
throughout; otherwise it faults BOUNDS, and so no address of the range exceeds 0xFFFFFFFF. -/
def Obligations.BoundsFaultExactlyWhenNotAdmitted : Prop :=
  ∀ (i : Instr) (s : State), WellFormed i → i.opcode.isBuffer = true → s.halted = false → s.len ≠ 0#32 →
    let admitted := s.addr.toNat + s.len.toNat ≤ 4294967296 ∧
      ∀ j, j < s.len.toNat → s.platform.readable (s.addr.toNat + j) = true
    (¬ admitted ↔ exec i s = .next { s with
      status := { s.status with fault := true, cause := 4#4 }, finfo := s.addr }) ∧
    (admitted ↔ ∃ raw out, exec i s = .next { s with
      result := { raw := raw, out := out }, status := { s.status with valid := true } }) ∧
    (admitted → ∀ j, j < s.len.toNat → s.addr.toNat + j < 4294967296)

/-- 20_memory R58: with LEN = 0 a buffer command succeeds whatever ADDR, `Readable` and memory are, and its result does not depend
on them. -/
def Obligations.ZeroLengthCommandAlwaysSucceeds : Prop :=
  ∀ (i : Instr) (s : State) (a : Word) (p : Platform) (m : Memory),
    WellFormed i → i.opcode.isBuffer = true → s.halted = false → s.len = 0#32 →
    ∃ r : Result,
      exec i s = .next { s with result := r, status := { s.status with valid := true } } ∧
      exec i { s with addr := a, platform := p, mem := m } = .next { s with
        addr := a, platform := p, mem := m, result := r, status := { s.status with valid := true } }

/-- 20_memory R53, R54: the buffer a command consumes is the LEN bytes from ADDR on, in increasing order of address. -/
def Obligations.BufferIsTheBytesFromAddrInOrder : Prop :=
  ∀ s : State, s.buffer.length = s.len.toNat ∧
    ∀ i (h : i < s.buffer.length), s.buffer[i] = s.mem.read (s.addr.toNat + i)

/-- 10_state R36: what a command leaves in RESULT is a function of the command, ADDR, LEN and the bytes of the range; it does not
depend on RESULT, STATUS.VALID, FINFO, the rest of memory or anything else. -/
def Obligations.ResultDependsOnOperandsOnly : Prop :=
  ∀ (i : Instr) (s s' : State), s.halted = false → s'.halted = false → s'.addr = s.addr → s'.len = s.len →
    (∀ j, j < s.len.toNat → s'.platform.readable (s.addr.toNat + j) = s.platform.readable (s.addr.toNat + j)) →
    (∀ j, j < s.len.toNat → s'.mem.read (s.addr.toNat + j) = s.mem.read (s.addr.toNat + j)) →
    ∃ t t', exec i s = .next t ∧ exec i s' = .next t' ∧ t'.halted = t.halted ∧
      (t.halted = false → t'.result = t.result ∧ t.status.valid = true ∧ t'.status.valid = true)

/-- 42_variants R148: the equivalences of the variants, and the empty buffer. -/
def Obligations.VariantsEqualTheirKernelCommands : Prop :=
  (∀ s : State, exec .ccitt s = exec (.ccittSeed 0xFFFF#16) s) ∧
  (∀ s : State, exec .x25Ccitt s = exec (.kunref 1#3 0xFFFF#16) s) ∧
  (∀ (seed : Half) (s : State), exec (.crc16p5935 seed) s = exec (.kunref 2#3 seed) s) ∧
  (∀ (seed : Half) (s : State), exec (.crc16p755B seed) s = exec (.kunref 3#3 seed) s) ∧
  (∀ (seed : Half) (s : State), exec (.crc16p9949Seed seed) s = exec (.kref 4#3 seed) s) ∧
  (∀ (seed : Half) (s : State), ∃ t t', exec (.ccittSeed seed) s = .next t ∧ exec (.kref 0#3 seed) s = .next t' ∧
    t.result.raw = t'.result.raw) ∧
  (∀ (seed : Half) (s : State), s.halted = false → s.len = 0#32 →
    (∀ i ∈ [Instr.crc16p5935 seed, .crc16p755B seed, .crc16p9949Seed seed, .kref 0#3 seed, .kunref 1#3 seed],
      exec i s = .next { s with
        result := { raw := seed, out := seed }, status := { s.status with valid := true } }) ∧
    exec (.ccittSeed seed) s = .next { s with
      result := { raw := seed, out := seed ^^^ 0xFFFF#16 }, status := { s.status with valid := true } } ∧
    exec .ccitt s = .next { s with
      result := { raw := 0xFFFF#16, out := 0xFFFF#16 ^^^ 0xFFFF#16 }, status := { s.status with valid := true } } ∧
    exec .x25Ccitt s = .next { s with
      result := { raw := 0xFFFF#16, out := 0xFFFF#16 }, status := { s.status with valid := true } })

/-- 41_kernels R125, 42_variants R149: a buffer split in two and fed through one seeded command, the second time with the RAW of
the first, ends with the RESULT of the whole buffer in one command; through CCITT_SEED from 0xFFFF, with CCITT's RESULT. -/
def Obligations.SplitBufferChainsThroughRaw : Prop :=
  ∀ (cmd : Half → Instr) (seed : Half) (s : State) (n₁ n₂ n : Word),
    (cmd = Instr.ccittSeed ∨ cmd = Instr.crc16p5935 ∨ cmd = Instr.crc16p755B ∨ cmd = Instr.crc16p9949Seed ∨
      ∃ t, cmd = Instr.kref (tselOfTable t) ∨ cmd = Instr.kunref (tselOfTable t)) →
    s.halted = false → n.toNat = n₁.toNat + n₂.toNat → RangeOk { s with len := n } →
    ∃ t₁ t₂ t, exec (cmd seed) { s with len := n₁ } = .next t₁ ∧
      exec (cmd t₁.result.raw) { t₁ with addr := s.addr + n₁, len := n₂ } = .next t₂ ∧
      exec (cmd seed) { s with len := n } = .next t ∧
      t.halted = false ∧ t₂.result = t.result ∧
      (cmd = Instr.ccittSeed → seed = 0xFFFF#16 → exec .ccitt { s with len := n } = .next t)

/-! ### Tables and kernels -/

/-- 40_tables R101 to R103: the ROM listings equal the construction, for all 256 entries of each, and the reversed polynomials. -/
def Obligations.RomsEqualTheConstruction : Prop :=
  (∀ i : Byte, tableEntry .ccittReverse i = constructR 0x1021#16 i) ∧
  (∀ i : Byte, tableEntry .ccittForward i = constructU 0x1021#16 i) ∧
  (∀ i : Byte, tableEntry .p5935 i = constructU 0x5935#16 i) ∧
  (∀ i : Byte, tableEntry .p755B i = constructU 0x755B#16 i) ∧
  (∀ i : Byte, tableEntry .p9949Reverse i = constructR 0x9949#16 i) ∧
  rev16 0x1021#16 = 0x8408#16 ∧ rev16 0x9949#16 = 0x9299#16

/-- 40_tables R105: the properties that every table has. -/
def Obligations.TablesAreLinearAndInjective : Prop :=
  (∀ t : Table, tableEntry t 0x00#8 = 0x0000#16) ∧
  (∀ (t : Table) (a b : Byte), tableEntry t (a ^^^ b) = tableEntry t a ^^^ tableEntry t b) ∧
  (∀ t : Table, isReflected t = false → tableEntry t 0x01#8 = polynomial t) ∧
  (∀ t : Table, isReflected t = true → tableEntry t 0x80#8 = rev16 (polynomial t)) ∧
  (∀ (t : Table) (a b : Byte), tableEntry t a = tableEntry t b → a = b) ∧
  (∀ t : Table, isReflected t = false →
    Function.Bijective (fun i : Byte => (tableEntry t i).extractLsb' 0 8)) ∧
  (∀ t : Table, isReflected t = true →
    Function.Bijective (fun i : Byte => (tableEntry t i).extractLsb' 8 8))

/-- 41_kernels R120, R121: the two step functions as formulas on natural numbers, with the explicit truncations. -/
def Obligations.StepFunctionsFollowTheFormulas : Prop :=
  ∀ (t : Table) (c : Half) (b : Byte),
    (stepR t c b).toNat =
      (tableEntry t (BitVec.ofNat 8 ((c.toNat ^^^ b.toNat) &&& 0xFF))).toNat ^^^ (c.toNat >>> 8) ∧
    (stepU t c b).toNat =
      (tableEntry t (BitVec.ofNat 8 (((c.toNat >>> 8) ^^^ b.toNat) &&& 0xFF))).toNat ^^^ ((c.toNat <<< 8) &&& 0xFFFF)

/-- 41_kernels R124: the unreflected kernel with no per-step truncation, truncated once at the end, gives the same value. -/
def Obligations.DeferredTruncationGivesTheSameKernel : Prop :=
  ∀ (t : Table) (s : Half) (bytes : List Byte), deferredKernelU t s bytes = kernelU t s bytes

/-- 41_kernels R130: each table-driven step equals 8 single-bit steps with the table's polynomial in the table's bit order, and so
does a kernel over every buffer. -/
def Obligations.TableDrivenKernelsEqualBitSerial : Prop :=
  (∀ (t : Table) (c : Half) (b : Byte), isReflected t = true → stepR t c b = bitSerialR (polynomial t) c b) ∧
  (∀ (t : Table) (c : Half) (b : Byte), isReflected t = false → stepU t c b = bitSerialU (polynomial t) c b) ∧
  (∀ (t : Table) (s : Half) (bytes : List Byte), isReflected t = true →
    kernelR t s bytes = bytes.foldl (bitSerialR (polynomial t)) s) ∧
  (∀ (t : Table) (s : Half) (bytes : List Byte), isReflected t = false →
    kernelU t s bytes = bytes.foldl (bitSerialU (polynomial t)) s)

/-- 95_test_vectors V4, the X-25 residue: CCITT over a message followed by its own OUT, low byte first, always ends with RAW =
0xF0B8 and OUT = 0x0F47. -/
def Obligations.CcittResidueIsConstant : Prop :=
  ∀ message : List Byte,
    let out := kernelR .ccittReverse 0xFFFF#16 message ^^^ 0xFFFF#16
    let raw := kernelR .ccittReverse 0xFFFF#16 (message ++ [out.extractLsb' 0 8, out.extractLsb' 8 8])
    raw = 0xF0B8#16 ∧ raw ^^^ 0xFFFF#16 = 0x0F47#16

/-! ### Host accesses -/

/-- A step runs the decoded command (10_state R23, 41_kernels R127): with a write of w to CMD to be served on an admissible
platform, a running engine takes the decoder's fault, or executes the decoded command, in the state in which that write is taken
off. The same for the word of `withFetchWord`, the model's own operation (log 5). -/
def Obligations.StepRunsTheDecodedCommand : Prop :=
  (∀ (s : State) (w : Word) (rest : List Input), PlatformOk s → s.halted = false →
    s.pending = .write s.platform.crcBase 4 w :: rest →
    (∀ i, decode w = .instr i → step s = exec i { s with pending := rest }) ∧
    (∀ c, decode w = .fault c → step s = .next { s with
      pending := rest, status := { s.status with fault := true, cause := causeCode c }, finfo := w })) ∧
  (∀ (s : State) (w : Nat) (i : Instr), PlatformOk s → s.halted = false → decodeTableWord 32 w = some i →
    step (s.withFetchWord 32 w) = exec i s)

/-- 10_state R21 to R26, R30, R32, R33: what an aligned 32-bit host read of the window returns, halted or not, and that it changes
nothing else. -/
def Obligations.ReadReturnsTheRegister : Prop :=
  ∀ (s : State) (offset : Nat) (rest : List Input), PlatformOk s → offset < 64 → offset % 4 = 0 →
    s.pending = .read (s.platform.crcBase + offset) 4 :: rest →
    ∃ v, step s = .next { s with pending := rest, replies := v :: s.replies } ∧
      (offset = 0x00 → v = 0#32) ∧ (offset = 0x04 → v = s.addr) ∧ (offset = 0x08 → v = s.len) ∧
      (offset = 0x0C → v.toNat = 65536 * s.result.raw.toNat + s.result.out.toNat) ∧
      (offset = 0x10 → v.toNat =
        16 * s.status.cause.toNat + 2 * s.status.fault.toNat + s.status.valid.toNat) ∧
      (offset = 0x14 → v = s.finfo) ∧ (0x18 ≤ offset → v = 0#32)

/-- 10_state R21, R22: a host write of ADDR or LEN in the running mode. -/
def Obligations.StagingRegistersTakeAnyValue : Prop :=
  ∀ (s : State) (v : Word) (rest : List Input), PlatformOk s → s.halted = false →
    (s.pending = .write (s.platform.crcBase + 0x04) 4 v :: rest → step s = .next { s with pending := rest, addr := v }) ∧
    (s.pending = .write (s.platform.crcBase + 0x08) 4 v :: rest → step s = .next { s with pending := rest, len := v })

/-- 10_state R33, R34: a host write to RESULT, STATUS, FINFO or a reserved offset has no effect, and a read of a reserved offset
returns 0 and has no other effect. -/
def Obligations.ReadOnlyAndReservedOffsetsIgnoreWrites : Prop :=
  ∀ (s : State) (offset : Nat) (v : Word) (rest : List Input), PlatformOk s →
    0x0C ≤ offset → offset < 64 → offset % 4 = 0 →
    (s.pending = .write (s.platform.crcBase + offset) 4 v :: rest → step s = .next { s with pending := rest }) ∧
    (0x18 ≤ offset → s.pending = .read (s.platform.crcBase + offset) 4 :: rest →
      step s = .next { s with pending := rest, replies := 0#32 :: s.replies })

/-- 10_state R30: the mode is STATUS.FAULT; while halted every aligned 32-bit host write is ignored, at every offset, every such read
returns the register's value, and only reset leaves the mode. -/
def Obligations.HaltedModeIgnoresWritesUntilReset : Prop :=
  (∀ s : State, s.halted = s.status.fault) ∧
  (∀ (s : State) (offset : Nat) (v : Word) (rest : List Input), PlatformOk s → s.status.fault = true →
    offset < 64 → offset % 4 = 0 →
    (s.pending = .write (s.platform.crcBase + offset) 4 v :: rest → step s = .next { s with pending := rest }) ∧
    (s.pending = .read (s.platform.crcBase + offset) 4 :: rest →
      step s = .next { s with pending := rest, replies := s.readReg (regAt offset) :: s.replies })) ∧
  (∀ s t : State, s.status.fault = true → step s = .next t →
    (t.status.fault = false ↔ ∃ rest, s.pending = .reset :: rest))

/-- 20_memory R55: the byte view of the window is little-endian; OUT lies at 0x0C and 0x0D, RAW at 0x0E and 0x0F. -/
def Obligations.WindowBytesAreLittleEndian : Prop :=
  (∀ (s : State) (offset k : Nat), offset % 4 = 0 → k < 4 → ∀ j, j < 8 →
    (s.windowByte (offset + k)).getLsbD j = (s.readReg (regAt offset)).getLsbD (8 * k + j)) ∧
  (∀ s : State, s.windowByte 0x0D ++ s.windowByte 0x0C = s.result.out ∧
    s.windowByte 0x0F ++ s.windowByte 0x0E = s.result.raw)

/-- 10_state R35, 60_exceptions R168: an access to the window that is not aligned 32-bit is refused. Three clauses are the model's:
that an access which only partly lies in the window is such an access (log 19); that the
refusal holds while the engine is halted too (log 21); and that an access which touches no byte of the window is refused (log 8). -/
def Obligations.OnlyAlignedWindowAccessesAreServed : Prop :=
  ∀ (s : State) (addr bytes : Nat) (v : Word) (rest : List Input), PlatformOk s → 0 < bytes →
    s.pending = .read addr bytes :: rest ∨ s.pending = .write addr bytes v :: rest →
    let touches := addr < s.platform.crcBase + 64 ∧ s.platform.crcBase < addr + bytes
    (touches → ¬ (bytes = 4 ∧ addr % 4 = 0) → step s = .refused .badWindowAccess) ∧
    (¬ touches → step s = .refused .outsideWindow)

/-- 20_memory R59, 60_exceptions R168: a platform is refused, at every step (log 16), exactly when some `Readable` address lies in the register window or
has read side effects. -/
def Obligations.PlatformIsRefusedExactlyForItsReadable : Prop :=
  ∀ s : State,
    ((∃ r, step s = .refused r ∧ s.platform.objection = some r) ↔
      ∃ a, s.platform.readable a = true ∧
        ((s.platform.crcBase ≤ a ∧ a < s.platform.crcBase + 64) ∨ s.platform.hasSideEffect a = true)) ∧
    (∀ r, s.platform.objection = some r → r = .readableCoversWindow ∨ r = .readableHasSideEffects)

/-- 70_reset R197, R193: ADDR and LEN written before CMD are the ones the command uses, and a read of RESULT and STATUS after CMD
sees what it left. -/
def Obligations.CommandUsesStagedValuesAndIsSeenByReads : Prop :=
  ∀ (s t : State) (a n w : Word) (rest : List Input), PlatformOk s → s.halted = false →
    s.pending = s.platform.wr .addr a :: s.platform.wr .len n :: s.platform.wr .cmd w ::
      s.platform.rd .status :: s.platform.rd .result :: rest →
    issue w { s with addr := a, len := n } = .next t →
    Sys2Proof.core.run 5 s = .next { t with
      pending := rest, replies := resultWord t.result :: statusWord t.status :: s.replies }

/-- 70_reset R200: a run of accesses and events that the spec gives a meaning ends with all of them served: the engine never
hangs and no step stops. -/
def Obligations.EveryMeaningfulRunEnds : Prop :=
  ∀ s : State, PlatformOk s → (∀ x ∈ s.pending, InputOk s.platform x) → ∃ t, RunEnds s t ∧ t.pending = []

/-! ### What a step may change -/

/-- 20_memory R50, R60: only a store by a host or another agent changes a byte of the buffer memory, and it changes that byte to
the stored value. -/
def Obligations.OnlyStoresChangeMemory : Prop :=
  ∀ (s t : State) (a : Nat), EngineInv s → step s = .next t → t.mem.read a ≠ s.mem.read a →
    ∃ (addr : Word) (b : Byte) (rest : List Input), s.pending = .store addr b :: rest ∧ addr.toNat = a ∧ t.mem.read a = b

/-- 70_reset R193, R198: a store of one byte outside the register window, by a host or another agent, writes that byte and nothing
else; one into the window is refused (10_state R35, in the model's reading, log 9). -/
def Obligations.StoreWritesOneByte : Prop :=
  ∀ (s : State) (addr : Word) (b : Byte) (rest : List Input), PlatformOk s → EngineInv s → s.pending = .store addr b :: rest →
    let inWindow := s.platform.crcBase ≤ addr.toNat ∧ addr.toNat < s.platform.crcBase + 64
    (¬ inWindow → ∃ m : Memory, step s = .next { s with pending := rest, mem := m } ∧ m.read addr.toNat = b ∧
      (∀ a, a ≠ addr.toNat → m.read a = s.mem.read a) ∧ m.wf = true) ∧
    (inWindow → step s = .refused .badWindowAccess)

/-- 10_state R21, R22: ADDR and LEN change only by a host write of that register in the running mode, or by reset; so no command
changes them. -/
def Obligations.StagingChangesOnlyByHostWriteOrReset : Prop :=
  ∀ s t : State, step s = .next t →
    (t.addr ≠ s.addr → (∃ rest, s.pending = .reset :: rest) ∨
      (s.halted = false ∧ ∃ rest, s.pending = .write (s.platform.crcBase + 0x04) 4 t.addr :: rest)) ∧
    (t.len ≠ s.len → (∃ rest, s.pending = .reset :: rest) ∨
      (s.halted = false ∧ ∃ rest, s.pending = .write (s.platform.crcBase + 0x08) 4 t.len :: rest))

/-- 10_state R24 to R26: RESULT and VALID change only by a command that succeeds, FAULT, CAUSE and FINFO only by a command that
faults, each issued by a write of CMD in the running mode, or by reset. -/
def Obligations.StatusAndResultChangeOnlyByCommandOrReset : Prop :=
  ∀ s t : State, step s = .next t → (∀ rest, s.pending ≠ .reset :: rest) →
    (t.result ≠ s.result ∨ t.status.valid ≠ s.status.valid →
      s.halted = false ∧ t.halted = false ∧ t.status.valid = true ∧
        ∃ w i rest, s.pending = .write s.platform.crcBase 4 w :: rest ∧ decode w = .instr i) ∧
    (t.status.fault ≠ s.status.fault ∨ t.status.cause ≠ s.status.cause ∨ t.finfo ≠ s.finfo →
      s.halted = false ∧ t.halted = true ∧ t.result = s.result ∧ t.status.valid = s.status.valid ∧
        ∃ w rest, s.pending = .write s.platform.crcBase 4 w :: rest)

/-! ### The invariant -/

/-- Two canonical memories that read the same everywhere are the same data, so equality of states is equality of what can be
read (the model's own canonical form). -/
def Obligations.CanonicalMemoriesAreEqualIfTheyReadEqual : Prop :=
  ∀ m m' : Memory, m.wf = true → m'.wf = true → (∀ a, m.read a = m'.read a) → m = m'

/-- The machine right after reset meets the invariant. -/
def Obligations.ResetMeetsTheInvariant : Prop := EngineInv State.reset

/-- 10_state R24 to R26, 60_exceptions R160 to R162: every step keeps the invariant. From every state that meets it, reached or
not, a step that answers a next state leaves memory canonical; CAUSE and FINFO 0 while FAULT = 0, and while FAULT = 1 a cause and
a FINFO that explain each other; RESULT 0 until VALID. -/
def Obligations.StepKeepsTheInvariant : Prop :=
  ∀ s t : State, EngineInv s → step s = .next t → EngineInv t

/-! ### Admissible platforms -/

/-- 20_memory R51, R59, 60_exceptions R168: a change of `Readable` between two commands, an event the model allows (log 10), changes
`Readable` and nothing else; one that would cover the register window or memory with read side effects is refused in that step. -/
def Obligations.ReadableChangesUnlessRefused : Prop :=
  ∀ (s : State) (ranges : List Range) (rest : List Input), PlatformOk s → s.pending = .setReadable ranges :: rest →
    let p : Platform := { s.platform with readableRanges := ranges }
    let covered := ∃ a, p.readable a = true ∧
      ((s.platform.crcBase ≤ a ∧ a < s.platform.crcBase + 64) ∨ s.platform.hasSideEffect a = true)
    (¬ covered → step s = .next { s with pending := rest, platform := p }) ∧
    (covered → step s = .refused .readableCoversWindow ∨ step s = .refused .readableHasSideEffects)

/-- 60_exceptions R168, 20_memory R59: no step that answers a next state, and no run that ends, begins on or comes to a platform
whose `Readable` covers the register window or memory with read side effects. -/
def Obligations.RunsStayOnAdmissiblePlatforms : Prop :=
  (∀ s t : State, step s = .next t → PlatformOk s ∧ PlatformOk t) ∧
  (∀ s t : State, RunEnds s t → PlatformOk s ∧ PlatformOk t) ∧
  (∀ s : State, PlatformOk s ↔ ∀ a, s.platform.readable a = true →
    ¬ (s.platform.crcBase ≤ a ∧ a < s.platform.crcBase + 64) ∧ s.platform.hasSideEffect a = false)
end

