-- ==== Sys2Proof/Laws/Kernels.lean ====
section
/-! SUPPORT. The small laws of the step functions, the kernels and the buffer operand. -/

namespace Sys2Proof.Machine

/-- The index of the reflected step: the low byte of the state, and the byte. -/
theorem stepR_eq (t : Table) (c : Half) (b : Byte) :
    stepR t c b = tableEntry t (c.extractLsb' 0 8 ^^^ b) ^^^ (c >>> 8) := by
  unfold stepR
  congr 2
  apply BitVec.eq_of_getLsbD_eq
  intro i hi
  simp only [BitVec.getLsbD_setWidth, BitVec.getLsbD_and, BitVec.getLsbD_xor, BitVec.getLsbD_extractLsb']
  interval_cases i <;> simp

/-- The index of the unreflected step: the high byte of the state, and the byte. -/
theorem stepU_eq (t : Table) (c : Half) (b : Byte) :
    stepU t c b = tableEntry t (c.extractLsb' 8 8 ^^^ b) ^^^ (c <<< 8) := by
  unfold stepU
  congr 2
  apply BitVec.eq_of_getLsbD_eq
  intro i hi
  simp only [BitVec.getLsbD_setWidth, BitVec.getLsbD_and, BitVec.getLsbD_xor, BitVec.getLsbD_extractLsb',
    BitVec.getLsbD_ushiftRight]
  interval_cases i <;> simp

@[simp] theorem kernelR_nil (t : Table) (s : Half) : kernelR t s [] = s := rfl

@[simp] theorem kernelU_nil (t : Table) (s : Half) : kernelU t s [] = s := rfl

@[simp] theorem kernelR_cons (t : Table) (s : Half) (b : Byte) (bs : List Byte) :
    kernelR t s (b :: bs) = kernelR t (stepR t s b) bs := rfl

@[simp] theorem kernelU_cons (t : Table) (s : Half) (b : Byte) (bs : List Byte) :
    kernelU t s (b :: bs) = kernelU t (stepU t s b) bs := rfl

@[simp] theorem bytes_length (m : Memory) (a n : Nat) : (m.bytes a n).length = n := by simp [Memory.bytes]

@[simp] theorem bytes_zero (m : Memory) (a : Nat) : m.bytes a 0 = [] := rfl

theorem bytes_getElem (m : Memory) (a n i : Nat) (h : i < (m.bytes a n).length) :
    (m.bytes a n)[i] = m.read (a + i) := by simp [Memory.bytes]

theorem bytes_append (m : Memory) (a n k : Nat) : m.bytes a (n + k) = m.bytes a n ++ m.bytes (a + n) k := by
  simp [Memory.bytes, List.range_add, Nat.add_assoc]

theorem admits_iff (p : Platform) (a n : Nat) :
    p.admits a n = true ↔ a + n ≤ Config.bufferSpace ∧ ∀ i, i < n → p.readable (a + i) = true := by
  simp [Platform.admits]

theorem rangeAdmitted_iff (s : State) : s.rangeAdmitted = true ↔
    s.addr.toNat + s.len.toNat ≤ Config.bufferSpace ∧
      ∀ i, i < s.len.toNat → s.platform.readable (s.addr.toNat + i) = true :=
  admits_iff _ _ _

theorem bufferOk_iff (s : State) : s.bufferOk = true ↔ s.len = 0#32 ∨ s.rangeAdmitted = true := by
  simp [State.bufferOk]

theorem buffer_empty (s : State) (h : s.len = 0#32) : s.buffer = [] := by simp [State.buffer, h]

theorem tableOfTsel_tselOfTable (t : Table) : tableOfTsel (tselOfTable t) = some t := by cases t <;> rfl

/-- A select names a table exactly when it is legal. -/
theorem tableOfTsel_isSome (tsel : BitVec 3) : (tableOfTsel tsel).isSome = legalTsel tsel := by
  revert tsel; decide

theorem tableOfTsel_eq_some (tsel : BitVec 3) (t : Table) : tableOfTsel tsel = some t ↔ tsel = tselOfTable t := by
  cases t <;> revert tsel <;> decide

/-! ### The construction is linear over XOR -/

theorem bitStepR_xor (q a b : Half) : bitStepR q (a ^^^ b) = bitStepR q a ^^^ bitStepR q b := by
  unfold bitStepR
  rw [BitVec.getLsbD_xor]
  cases a.getLsbD 0 <;> cases b.getLsbD 0 <;> simp [BitVec.ushiftRight_xor_distrib] <;>
    (apply BitVec.eq_of_getLsbD_eq
     intro i hi
     simp only [BitVec.getLsbD_xor]
     cases (a >>> 1).getLsbD i <;> cases (b >>> 1).getLsbD i <;> cases q.getLsbD i <;> rfl)

theorem bitStepU_xor (p a b : Half) : bitStepU p (a ^^^ b) = bitStepU p a ^^^ bitStepU p b := by
  unfold bitStepU
  rw [BitVec.getLsbD_xor]
  cases a.getLsbD 15 <;> cases b.getLsbD 15 <;> simp [BitVec.shiftLeft_xor_distrib] <;>
    (apply BitVec.eq_of_getLsbD_eq
     intro i hi
     simp only [BitVec.getLsbD_xor]
     cases (a <<< 1).getLsbD i <;> cases (b <<< 1).getLsbD i <;> cases p.getLsbD i <;> rfl)

theorem repeatStep_xor (f : Half → Half) (hf : ∀ a b, f (a ^^^ b) = f a ^^^ f b) (n : Nat) (a b : Half) :
    repeatStep f n (a ^^^ b) = repeatStep f n a ^^^ repeatStep f n b := by
  induction n generalizing a b with
  | zero => rfl
  | succ n ih => simp only [repeatStep, hf, ih]

/-- The range check in the spec's own terms. -/
theorem rangeOk_iff_bufferOk (s : State) :
    (s.len = 0#32 ∨ (s.addr.toNat + s.len.toNat ≤ 4294967296 ∧
      ∀ i, i < s.len.toNat → s.platform.readable (s.addr.toNat + i) = true)) ↔ s.bufferOk = true := by
  rw [bufferOk_iff, rangeAdmitted_iff]

end Sys2Proof.Machine
end

