-- ==== Sys2Proof/Laws/State.lean ====
section
/-! SUPPORT. One lemma for each field of State under each named update, true by rfl, so that no proof unfolds a record update; and
what each update does to the halted mode. -/

namespace Sys2Proof.Machine.State

section raise
variable (c : Cause) (info : Word) (s : State)
@[simp] theorem raise_addr : (s.raise c info).addr = s.addr := rfl
@[simp] theorem raise_len : (s.raise c info).len = s.len := rfl
@[simp] theorem raise_result : (s.raise c info).result = s.result := rfl
@[simp] theorem raise_status : (s.raise c info).status = statusOnFault c s.status := rfl
@[simp] theorem raise_finfo : (s.raise c info).finfo = info := rfl
@[simp] theorem raise_mem : (s.raise c info).mem = s.mem := rfl
@[simp] theorem raise_platform : (s.raise c info).platform = s.platform := rfl
@[simp] theorem raise_pending : (s.raise c info).pending = s.pending := rfl
@[simp] theorem raise_replies : (s.raise c info).replies = s.replies := rfl
@[simp] theorem raise_halted : (s.raise c info).halted = true := rfl
end raise

section applyReset
variable (s : State)
@[simp] theorem applyReset_addr : (s.applyReset).addr = 0#32 := rfl
@[simp] theorem applyReset_len : (s.applyReset).len = 0#32 := rfl
@[simp] theorem applyReset_result : (s.applyReset).result = ⟨0#16, 0#16⟩ := rfl
@[simp] theorem applyReset_status : (s.applyReset).status = ⟨false, false, 0#4⟩ := rfl
@[simp] theorem applyReset_finfo : (s.applyReset).finfo = 0#32 := rfl
@[simp] theorem applyReset_mem : (s.applyReset).mem = s.mem := rfl
@[simp] theorem applyReset_platform : (s.applyReset).platform = s.platform := rfl
@[simp] theorem applyReset_pending : (s.applyReset).pending = s.pending := rfl
@[simp] theorem applyReset_replies : (s.applyReset).replies = s.replies := rfl
@[simp] theorem applyReset_halted : (s.applyReset).halted = false := rfl
end applyReset

section complete
variable (raw out : Half) (s : State)
@[simp] theorem complete_addr : (s.complete raw out).addr = s.addr := rfl
@[simp] theorem complete_len : (s.complete raw out).len = s.len := rfl
@[simp] theorem complete_result : (s.complete raw out).result = ⟨raw, out⟩ := rfl
@[simp] theorem complete_status : (s.complete raw out).status = statusOnSuccess s.status := rfl
@[simp] theorem complete_finfo : (s.complete raw out).finfo = s.finfo := rfl
@[simp] theorem complete_mem : (s.complete raw out).mem = s.mem := rfl
@[simp] theorem complete_platform : (s.complete raw out).platform = s.platform := rfl
@[simp] theorem complete_pending : (s.complete raw out).pending = s.pending := rfl
@[simp] theorem complete_replies : (s.complete raw out).replies = s.replies := rfl
@[simp] theorem complete_halted : (s.complete raw out).halted = s.halted := rfl
end complete

section reply
variable (v : Word) (s : State)
@[simp] theorem reply_addr : (s.reply v).addr = s.addr := rfl
@[simp] theorem reply_len : (s.reply v).len = s.len := rfl
@[simp] theorem reply_result : (s.reply v).result = s.result := rfl
@[simp] theorem reply_status : (s.reply v).status = s.status := rfl
@[simp] theorem reply_finfo : (s.reply v).finfo = s.finfo := rfl
@[simp] theorem reply_mem : (s.reply v).mem = s.mem := rfl
@[simp] theorem reply_platform : (s.reply v).platform = s.platform := rfl
@[simp] theorem reply_pending : (s.reply v).pending = s.pending := rfl
@[simp] theorem reply_replies : (s.reply v).replies = v :: s.replies := rfl
@[simp] theorem reply_halted : (s.reply v).halted = s.halted := rfl
end reply

section setAddr
variable (v : Word) (s : State)
@[simp] theorem setAddr_addr : (s.setAddr v).addr = v := rfl
@[simp] theorem setAddr_len : (s.setAddr v).len = s.len := rfl
@[simp] theorem setAddr_result : (s.setAddr v).result = s.result := rfl
@[simp] theorem setAddr_status : (s.setAddr v).status = s.status := rfl
@[simp] theorem setAddr_finfo : (s.setAddr v).finfo = s.finfo := rfl
@[simp] theorem setAddr_mem : (s.setAddr v).mem = s.mem := rfl
@[simp] theorem setAddr_platform : (s.setAddr v).platform = s.platform := rfl
@[simp] theorem setAddr_pending : (s.setAddr v).pending = s.pending := rfl
@[simp] theorem setAddr_replies : (s.setAddr v).replies = s.replies := rfl
@[simp] theorem setAddr_halted : (s.setAddr v).halted = s.halted := rfl
end setAddr

section setLen
variable (v : Word) (s : State)
@[simp] theorem setLen_addr : (s.setLen v).addr = s.addr := rfl
@[simp] theorem setLen_len : (s.setLen v).len = v := rfl
@[simp] theorem setLen_result : (s.setLen v).result = s.result := rfl
@[simp] theorem setLen_status : (s.setLen v).status = s.status := rfl
@[simp] theorem setLen_finfo : (s.setLen v).finfo = s.finfo := rfl
@[simp] theorem setLen_mem : (s.setLen v).mem = s.mem := rfl
@[simp] theorem setLen_platform : (s.setLen v).platform = s.platform := rfl
@[simp] theorem setLen_pending : (s.setLen v).pending = s.pending := rfl
@[simp] theorem setLen_replies : (s.setLen v).replies = s.replies := rfl
@[simp] theorem setLen_halted : (s.setLen v).halted = s.halted := rfl
end setLen

section storeByte
variable (a : Word) (b : Byte) (s : State)
@[simp] theorem storeByte_addr : (s.storeByte a b).addr = s.addr := rfl
@[simp] theorem storeByte_len : (s.storeByte a b).len = s.len := rfl
@[simp] theorem storeByte_result : (s.storeByte a b).result = s.result := rfl
@[simp] theorem storeByte_status : (s.storeByte a b).status = s.status := rfl
@[simp] theorem storeByte_finfo : (s.storeByte a b).finfo = s.finfo := rfl
@[simp] theorem storeByte_mem : (s.storeByte a b).mem = s.mem.write a.toNat b := rfl
@[simp] theorem storeByte_platform : (s.storeByte a b).platform = s.platform := rfl
@[simp] theorem storeByte_pending : (s.storeByte a b).pending = s.pending := rfl
@[simp] theorem storeByte_replies : (s.storeByte a b).replies = s.replies := rfl
@[simp] theorem storeByte_halted : (s.storeByte a b).halted = s.halted := rfl
end storeByte

section setReadable
variable (rs : List Range) (s : State)
@[simp] theorem setReadable_addr : (s.setReadable rs).addr = s.addr := rfl
@[simp] theorem setReadable_len : (s.setReadable rs).len = s.len := rfl
@[simp] theorem setReadable_result : (s.setReadable rs).result = s.result := rfl
@[simp] theorem setReadable_status : (s.setReadable rs).status = s.status := rfl
@[simp] theorem setReadable_finfo : (s.setReadable rs).finfo = s.finfo := rfl
@[simp] theorem setReadable_mem : (s.setReadable rs).mem = s.mem := rfl
@[simp] theorem setReadable_platform : (s.setReadable rs).platform = { s.platform with readableRanges := rs } := rfl
@[simp] theorem setReadable_pending : (s.setReadable rs).pending = s.pending := rfl
@[simp] theorem setReadable_replies : (s.setReadable rs).replies = s.replies := rfl
@[simp] theorem setReadable_halted : (s.setReadable rs).halted = s.halted := rfl
end setReadable

section withPending
variable (xs : List Input) (s : State)
@[simp] theorem withPending_addr : (s.withPending xs).addr = s.addr := rfl
@[simp] theorem withPending_len : (s.withPending xs).len = s.len := rfl
@[simp] theorem withPending_result : (s.withPending xs).result = s.result := rfl
@[simp] theorem withPending_status : (s.withPending xs).status = s.status := rfl
@[simp] theorem withPending_finfo : (s.withPending xs).finfo = s.finfo := rfl
@[simp] theorem withPending_mem : (s.withPending xs).mem = s.mem := rfl
@[simp] theorem withPending_platform : (s.withPending xs).platform = s.platform := rfl
@[simp] theorem withPending_pending : (s.withPending xs).pending = xs := rfl
@[simp] theorem withPending_replies : (s.withPending xs).replies = s.replies := rfl
@[simp] theorem withPending_halted : (s.withPending xs).halted = s.halted := rfl
end withPending

@[simp] theorem withPending_withPending (xs ys : List Input) (s : State) :
    (s.withPending xs).withPending ys = s.withPending ys := rfl

end Sys2Proof.Machine.State

namespace Sys2Proof.Machine

@[simp] theorem statusOnSuccess_valid (st : Status) : (statusOnSuccess st).valid = true := rfl
@[simp] theorem statusOnSuccess_fault (st : Status) : (statusOnSuccess st).fault = st.fault := rfl
@[simp] theorem statusOnSuccess_cause (st : Status) : (statusOnSuccess st).cause = st.cause := rfl
@[simp] theorem statusOnFault_valid (c : Cause) (st : Status) : (statusOnFault c st).valid = st.valid := rfl
@[simp] theorem statusOnFault_fault (c : Cause) (st : Status) : (statusOnFault c st).fault = true := rfl
@[simp] theorem statusOnFault_cause (c : Cause) (st : Status) : (statusOnFault c st).cause = causeCode c := rfl

end Sys2Proof.Machine
end

