-- ==== Sys2Proof/Laws/Commands.lean ====
section
/-! SUPPORT. Everything the shared bodies of the commands can do, and the binding behind each arm of exec: the provers cite these
instead of unfolding a meaning. -/

namespace Sys2Proof.Machine

/-! ### A buffer command, case by case -/

theorem runBuffer_halted (b : Binding) (s : State) (h : s.halted = true) : runBuffer b s = s := by
  simp [runBuffer, h]

theorem runBuffer_fault (b : Binding) (s : State) (h : s.halted = false) (hb : s.bufferOk = false) :
    runBuffer b s = s.raise .bounds s.addr := by simp [runBuffer, h, hb]

theorem runBuffer_success (b : Binding) (s : State) (h : s.halted = false) (hb : s.bufferOk = true) :
    runBuffer b s = s.complete (b.raw s.buffer) (b.raw s.buffer ^^^ b.xorout) := by simp [runBuffer, h, hb]

/-- All that a buffer command can do. -/
theorem runBuffer_cases (b : Binding) (s : State) :
    (s.halted = true ∧ runBuffer b s = s) ∨
    (s.halted = false ∧ s.bufferOk = false ∧ runBuffer b s = s.raise .bounds s.addr) ∨
    (s.halted = false ∧ s.bufferOk = true ∧
      runBuffer b s = s.complete (b.raw s.buffer) (b.raw s.buffer ^^^ b.xorout)) := by
  cases h : s.halted
  · cases hb : s.bufferOk
    · exact .inr (.inl ⟨rfl, rfl, runBuffer_fault b s h hb⟩)
    · exact .inr (.inr ⟨rfl, rfl, runBuffer_success b s h hb⟩)
  · exact .inl ⟨rfl, runBuffer_halted b s h⟩

/-! ### A command that selects a table, case by case -/

theorem withTable_halted (i : Instr) (tsel : BitVec 3) (f : Table → State → State) (s : State)
    (h : s.halted = true) : withTable i tsel f s = s := by simp [withTable, h]

theorem withTable_table (i : Instr) (tsel : BitVec 3) (f : Table → State → State) (s : State) (t : Table)
    (h : s.halted = false) (ht : tableOfTsel tsel = some t) : withTable i tsel f s = f t s := by
  simp [withTable, h, ht]

theorem withTable_badTsel (i : Instr) (tsel : BitVec 3) (f : Table → State → State) (s : State)
    (h : s.halted = false) (ht : tableOfTsel tsel = none) : withTable i tsel f s = s.raise .badTsel (encode i) := by
  simp [withTable, h, ht]

/-- All that a command that selects a table can do. -/
theorem withTable_cases (i : Instr) (tsel : BitVec 3) (f : Table → State → State) (s : State) :
    (s.halted = true ∧ withTable i tsel f s = s) ∨
    (s.halted = false ∧ legalTsel tsel = false ∧ withTable i tsel f s = s.raise .badTsel (encode i)) ∨
    (s.halted = false ∧ ∃ t, tableOfTsel tsel = some t ∧ withTable i tsel f s = f t s) := by
  cases h : s.halted
  · cases ht : tableOfTsel tsel with
    | none =>
      refine .inr (.inl ⟨rfl, ?_, withTable_badTsel i tsel f s h ht⟩)
      rw [← tableOfTsel_isSome, ht]; rfl
    | some t => exact .inr (.inr ⟨rfl, t, rfl, withTable_table i tsel f s t h ht⟩)
  · exact .inl ⟨rfl, withTable_halted i tsel f s h⟩

/-! ### The end state of a command -/

/-- The state a command leaves (`exec_eq_next`). -/
def commandState (i : Instr) (s : State) : State :=
  match i with
  | .ccitt => runBuffer ⟨.reflected, .ccittReverse, 0xFFFF#16, 0xFFFF#16⟩ s
  | .ccittSeed seed => runBuffer ⟨.reflected, .ccittReverse, seed, Config.ccittSeedXorout⟩ s
  | .x25Ccitt => runBuffer ⟨.unreflected, .ccittForward, 0xFFFF#16, 0x0000#16⟩ s
  | .crc16p5935 seed => runBuffer ⟨.unreflected, .p5935, seed, 0x0000#16⟩ s
  | .crc16p755B seed => runBuffer ⟨.unreflected, .p755B, seed, 0x0000#16⟩ s
  | .crc16p9949Seed seed => runBuffer ⟨.reflected, .p9949Reverse, seed, 0x0000#16⟩ s
  | .kref tsel seed => withTable (.kref tsel seed) tsel (fun t => runBuffer ⟨.reflected, t, seed, 0x0000#16⟩) s
  | .kunref tsel seed => withTable (.kunref tsel seed) tsel (fun t => runBuffer ⟨.unreflected, t, seed, 0x0000#16⟩) s
  | .tblrd tsel index =>
    withTable (.tblrd tsel index) tsel (fun t s => s.complete (tableEntry t index) (tableEntry t index)) s

/-- Every command answers a next state. -/
theorem exec_eq_next (i : Instr) (s : State) : exec i s = .next (commandState i s) := by cases i <;> rfl

/-- A buffer command with a legal select is `runBuffer` of one binding. -/
theorem commandState_buffer (i : Instr) (h : i.opcode.isBuffer = true) (hw : WellFormed i) :
    ∃ b : Binding, ∀ s, commandState i s = runBuffer b s := by
  cases i with
  | kref tsel seed =>
    obtain ⟨t, ht⟩ := Option.isSome_iff_exists.1 ((tableOfTsel_isSome tsel).trans hw)
    refine ⟨⟨.reflected, t, seed, 0⟩, fun s => ?_⟩
    cases hh : s.halted
    · exact withTable_table _ tsel _ s t hh ht
    · rw [runBuffer_halted _ s hh]; exact withTable_halted _ tsel _ s hh
  | kunref tsel seed =>
    obtain ⟨t, ht⟩ := Option.isSome_iff_exists.1 ((tableOfTsel_isSome tsel).trans hw)
    refine ⟨⟨.unreflected, t, seed, 0⟩, fun s => ?_⟩
    cases hh : s.halted
    · exact withTable_table _ tsel _ s t hh ht
    · rw [runBuffer_halted _ s hh]; exact withTable_halted _ tsel _ s hh
  | tblrd _ _ => cases h
  | _ => exact ⟨_, fun _ => rfl⟩

/-- A command neither reads nor writes what is still to be served. -/
theorem runBuffer_withPending (b : Binding) (s : State) (xs : List Input) :
    runBuffer b (s.withPending xs) = (runBuffer b s).withPending xs := by
  unfold runBuffer
  cases h : s.halted <;> cases hb : s.bufferOk <;>
    simp only [State.withPending_halted, show (s.withPending xs).bufferOk = s.bufferOk from rfl, h, hb] <;> rfl

theorem withTable_withPending (i : Instr) (tsel : BitVec 3) (f : Table → State → State) (s : State) (xs : List Input)
    (hf : ∀ t, f t (s.withPending xs) = (f t s).withPending xs) :
    withTable i tsel f (s.withPending xs) = (withTable i tsel f s).withPending xs := by
  cases hh : s.halted
  · cases ht : tableOfTsel tsel
    · simp only [withTable, State.withPending_halted, hh, ht]; rfl
    · simp only [withTable, State.withPending_halted, hh, ht]; exact hf _
  · simp only [withTable, State.withPending_halted, hh]; rfl

theorem commandState_withPending (i : Instr) (s : State) (xs : List Input) :
    commandState i (s.withPending xs) = (commandState i s).withPending xs := by
  cases i with
  | kref _ _ => exact withTable_withPending _ _ _ s xs fun _ => runBuffer_withPending _ s xs
  | kunref _ _ => exact withTable_withPending _ _ _ s xs fun _ => runBuffer_withPending _ s xs
  | tblrd _ _ => exact withTable_withPending _ _ _ s xs fun _ => rfl
  | _ => exact runBuffer_withPending _ s xs

/-- All that a command can do: nothing while halted, take a fault, or complete. -/
theorem exec_cases (i : Instr) (s t : State) (h : exec i s = .next t) :
    (s.halted = true ∧ t = s) ∨
    (s.halted = false ∧ ¬ WellFormed i ∧ t = s.raise .badTsel (encode i)) ∨
    (s.halted = false ∧ s.bufferOk = false ∧ i.opcode.isBuffer = true ∧ t = s.raise .bounds s.addr) ∨
    (s.halted = false ∧ ∃ raw out, t = s.complete raw out) := by
  have ht : commandState i s = t := Host.Outcome.next.inj ((exec_eq_next i s).symm.trans h)
  subst ht
  have buffer : ∀ (b : Binding), i.opcode.isBuffer = true → commandState i s = runBuffer b s →
      (s.halted = true ∧ commandState i s = s) ∨
      (s.halted = false ∧ ¬ WellFormed i ∧ commandState i s = s.raise .badTsel (encode i)) ∨
      (s.halted = false ∧ s.bufferOk = false ∧ i.opcode.isBuffer = true ∧ commandState i s = s.raise .bounds s.addr) ∨
      (s.halted = false ∧ ∃ raw out, commandState i s = s.complete raw out) := by
    intro b hi he
    rcases runBuffer_cases b s with ⟨h, e⟩ | ⟨h, hb, e⟩ | ⟨h, hb, e⟩
    · exact .inl ⟨h, he.trans e⟩
    · exact .inr (.inr (.inl ⟨h, hb, hi, he.trans e⟩))
    · exact .inr (.inr (.inr ⟨h, _, _, he.trans e⟩))
  cases i with
  | kref tsel seed =>
    rcases withTable_cases (.kref tsel seed) tsel (fun t => runBuffer ⟨.reflected, t, seed, 0x0000#16⟩) s with
      ⟨h, e⟩ | ⟨h, hl, e⟩ | ⟨h, t, ht, e⟩
    · exact .inl ⟨h, e⟩
    · exact .inr (.inl ⟨h, by simp [Instr.wellFormed, hl], e⟩)
    · exact buffer _ rfl e
  | kunref tsel seed =>
    rcases withTable_cases (.kunref tsel seed) tsel (fun t => runBuffer ⟨.unreflected, t, seed, 0x0000#16⟩) s with
      ⟨h, e⟩ | ⟨h, hl, e⟩ | ⟨h, t, ht, e⟩
    · exact .inl ⟨h, e⟩
    · exact .inr (.inl ⟨h, by simp [Instr.wellFormed, hl], e⟩)
    · exact buffer _ rfl e
  | tblrd tsel index =>
    rcases withTable_cases (.tblrd tsel index) tsel
      (fun t s => s.complete (tableEntry t index) (tableEntry t index)) s with ⟨h, e⟩ | ⟨h, hl, e⟩ | ⟨h, t, ht, e⟩
    · exact .inl ⟨h, e⟩
    · exact .inr (.inl ⟨h, by simp [Instr.wellFormed, hl], e⟩)
    · exact .inr (.inr (.inr ⟨h, _, _, e⟩))
  | _ => exact buffer _ rfl rfl

end Sys2Proof.Machine
end

