-- ==== Sys2Proof/Laws/Decode.lean ====
section
/-! SUPPORT. The fields of an assembled word, the opcode map, and what a decoder's answer says. -/

namespace Sys2Proof

section fields
variable (imm : Half) (tsel : BitVec 3) (op : Opcode)

@[simp] theorem opcField_commandWord : opcField (commandWord imm tsel op) = op.code := by
  apply BitVec.eq_of_getLsbD_eq
  intro i hi
  simp only [opcField, commandWord, BitVec.getLsbD_extractLsb', BitVec.getLsbD_append]
  grind

@[simp] theorem tselField_commandWord : tselField (commandWord imm tsel op) = tsel := by
  apply BitVec.eq_of_getLsbD_eq
  intro i hi
  simp only [tselField, commandWord, BitVec.getLsbD_extractLsb', BitVec.getLsbD_append]
  grind

@[simp] theorem rsvField_commandWord : rsvField (commandWord imm tsel op) = 0#5 := by
  apply BitVec.eq_of_getLsbD_eq
  intro i hi
  simp only [rsvField, commandWord, BitVec.getLsbD_extractLsb', BitVec.getLsbD_append]
  grind

@[simp] theorem immField_commandWord : immField (commandWord imm tsel op) = imm := by
  apply BitVec.eq_of_getLsbD_eq
  intro i hi
  simp only [immField, commandWord, BitVec.getLsbD_extractLsb', BitVec.getLsbD_append]
  grind

end fields

@[simp] theorem opcodeOf_code (op : Opcode) : opcodeOf op.code = some op := by cases op <;> rfl

theorem opcodeOf_eq_some (opc : Byte) (op : Opcode) : opcodeOf opc = some op ↔ opc = op.code := by
  cases op <;> revert opc <;> decide

theorem code_injective (op op' : Opcode) (h : op.code = op'.code) : op = op' := by
  have := opcodeOf_code op
  rw [h, opcodeOf_code] at this
  exact (Option.some.inj this).symm

theorem legalTsel_iff (tsel : BitVec 3) : legalTsel tsel = true ↔ tsel.toNat ≤ 4 := by revert tsel; decide

/-- A word is put together again from its fields. -/
theorem commandWord_of_fields (w : Word) (op : Opcode) (hop : opcField w = op.code) (hrsv : rsvField w = 0#5) :
    commandWord (immField w) (tselField w) op = w := by
  apply BitVec.eq_of_getLsbD_eq
  intro i hi
  simp only [commandWord, BitVec.getLsbD_append, ← hop, ← hrsv]
  simp only [opcField, rsvField, tselField, immField, BitVec.getLsbD_extractLsb']
  interval_cases i <;> simp

@[simp] theorem opcode_buildInstr (op : Opcode) (w : Word) : (buildInstr op w).opcode = op := by cases op <;> rfl

/-- All that an instruction from the decoder says about its word. -/
theorem decode_eq_instr (w : Word) (i : Instr) : decode w = .instr i ↔
    ∃ op, opcField w = op.code ∧ reservedFieldNonzero op w = false ∧
      (op.usesTsel = true → legalTsel (tselField w) = true) ∧ i = buildInstr op w := by
  unfold decode
  constructor
  · intro h
    split at h
    · cases h
    · rename_i op hop
      refine ⟨op, (opcodeOf_eq_some _ _).1 hop, ?_⟩
      split at h
      · cases h
      · split at h
        · cases h
        · cases h
          simp_all
  · rintro ⟨op, hop, hres, hleg, rfl⟩
    rw [(opcodeOf_eq_some _ _).2 hop]
    simp only [hres, Bool.false_eq_true, if_false]
    cases hu : op.usesTsel
    · simp
    · simp [hleg hu]

/-- All that a fault from the decoder says about its word. -/
theorem decode_eq_fault (w : Word) (c : Cause) : decode w = .fault c ↔
    (opcodeOf (opcField w) = none ∧ c = .illegalOpcode) ∨
    (∃ op, opcField w = op.code ∧ reservedFieldNonzero op w = true ∧ c = .reservedField) ∨
    (∃ op, opcField w = op.code ∧ reservedFieldNonzero op w = false ∧ op.usesTsel = true ∧
      legalTsel (tselField w) = false ∧ c = .badTsel) := by
  unfold decode
  constructor
  · intro h
    split at h
    · cases h; exact .inl ⟨‹_›, rfl⟩
    · rename_i op hop
      have hop' := (opcodeOf_eq_some _ _).1 hop
      split at h
      · cases h; exact .inr (.inl ⟨op, hop', ‹_›, rfl⟩)
      · split at h
        · cases h
          refine .inr (.inr ⟨op, hop', ?_⟩)
          simp_all
        · cases h
  · rintro (⟨h, rfl⟩ | ⟨op, hop, hres, rfl⟩ | ⟨op, hop, hres, hu, hl, rfl⟩)
    · rw [h]
    · rw [(opcodeOf_eq_some _ _).2 hop]; simp [hres]
    · rw [(opcodeOf_eq_some _ _).2 hop]; simp [hres, hu, hl]

end Sys2Proof
end

