-- ==== Sys2Proof/Laws/Memory.lean ====
section
/-! SUPPORT. The laws of the buffer memory: read after write, and that a write keeps the canonical form. -/

namespace Sys2Proof.Machine

@[simp] theorem read_nil (a : Nat) : Memory.read [] a = unlistedByte := rfl

theorem read_consCell_same (a : Nat) (b : Byte) (m : Memory) (h : m.read a = unlistedByte) :
    (consCell a b m).read a = b := by
  unfold consCell
  split
  · simp_all
  · simp [Memory.read]

theorem read_consCell_other (a a' : Nat) (b : Byte) (m : Memory) (h : a' ≠ a) :
    (consCell a b m).read a' = m.read a' := by
  unfold consCell
  split
  · rfl
  · simp [Memory.read, h.symm]

/-- Below the first address of a canonical memory nothing is listed. -/
theorem read_below (m : Memory) (lo a : Nat) (h : Memory.wfFrom lo m = true) (ha : a < lo) :
    m.read a = unlistedByte := by
  induction m generalizing lo with
  | nil => rfl
  | cons cell rest ih =>
    obtain ⟨k, v⟩ := cell
    simp only [Memory.wfFrom, Bool.and_eq_true, decide_eq_true_eq] at h
    have : k ≠ a := by omega
    simp only [Memory.read, this, if_false]
    exact ih (k + 1) h.2 (by omega)

theorem wfFrom_weaken (m : Memory) (lo lo' : Nat) (h : Memory.wfFrom lo m = true) (hl : lo' ≤ lo) :
    Memory.wfFrom lo' m = true := by
  cases m with
  | nil => rfl
  | cons cell rest =>
    simp only [Memory.wfFrom, Bool.and_eq_true, decide_eq_true_eq] at h ⊢
    exact ⟨⟨⟨by omega, h.1.1.2⟩, h.1.2⟩, h.2⟩

theorem read_write_same (m : Memory) (lo a : Nat) (b : Byte) (h : Memory.wfFrom lo m = true) :
    (m.write a b).read a = b := by
  induction m generalizing lo with
  | nil => exact read_consCell_same a b [] rfl
  | cons cell rest ih =>
    obtain ⟨k, v⟩ := cell
    have hr : Memory.wfFrom (k + 1) rest = true := by
      simp only [Memory.wfFrom, Bool.and_eq_true] at h
      exact h.2
    unfold Memory.write
    split
    · refine read_consCell_same a b _ (read_below _ k a ?_ ‹_›)
      simp only [Memory.wfFrom, Bool.and_eq_true, decide_eq_true_eq] at h ⊢
      exact ⟨⟨⟨Nat.le_refl k, h.1.1.2⟩, h.1.2⟩, h.2⟩
    · split
      · subst_vars
        exact read_consCell_same _ b rest (read_below rest _ _ hr (Nat.lt_succ_self _))
      · simp only [Memory.read, show k ≠ a from fun e => by simp_all, if_false]
        exact ih (k + 1) hr

theorem read_write_other (m : Memory) (a a' : Nat) (b : Byte) (hne : a' ≠ a) :
    (m.write a b).read a' = m.read a' := by
  induction m with
  | nil => exact read_consCell_other a a' b [] hne
  | cons cell rest ih =>
    obtain ⟨k, v⟩ := cell
    unfold Memory.write
    split
    · exact read_consCell_other a a' b _ hne
    · split
      · subst_vars
        rw [read_consCell_other _ a' b rest hne]
        simp [Memory.read, hne.symm]
      · simp only [Memory.read, ih]

theorem consCell_wf (lo a : Nat) (b : Byte) (m : Memory) (h : Memory.wfFrom (a + 1) m = true) (hlo : lo ≤ a)
    (ha : a < Config.bufferSpace) : Memory.wfFrom lo (consCell a b m) = true := by
  unfold consCell
  split
  · exact wfFrom_weaken m (a + 1) lo h (by omega)
  · simp_all [Memory.wfFrom]

theorem write_wfFrom (m : Memory) (lo a : Nat) (b : Byte) (h : Memory.wfFrom lo m = true) (hlo : lo ≤ a)
    (ha : a < Config.bufferSpace) : Memory.wfFrom lo (m.write a b) = true := by
  induction m generalizing lo with
  | nil => exact consCell_wf lo a b [] rfl hlo ha
  | cons cell rest ih =>
    obtain ⟨k, v⟩ := cell
    have hw := h
    simp only [Memory.wfFrom, Bool.and_eq_true, decide_eq_true_eq] at h
    unfold Memory.write
    split
    · refine consCell_wf lo a b _ ?_ hlo ha
      simp only [Memory.wfFrom, Bool.and_eq_true, decide_eq_true_eq]
      exact ⟨⟨⟨by omega, h.1.1.2⟩, h.1.2⟩, h.2⟩
    · split
      · subst_vars
        exact consCell_wf lo _ b rest h.2 hlo ha
      · simp only [Memory.wfFrom, Bool.and_eq_true, decide_eq_true_eq]
        exact ⟨h.1, ih (k + 1) h.2 (by omega)⟩

/-- Every memory operation keeps the canonical form: `Memory.write` is the only one that changes a memory. -/
theorem write_keeps_wf (m : Memory) (a : Word) (b : Byte) (h : m.wf = true) : (m.write a.toNat b).wf = true :=
  write_wfFrom m 0 a.toNat b h (Nat.zero_le _) a.isLt

end Sys2Proof.Machine
end

