-- ==== Sys2Proof/Laws/PerInstr.lean ====
section
/-! SUPPORT. A statement about every instruction as syntax, one lemma for each constructor: its assembled word has the match bits
of its row under its row's mask (spec/30_encoding.md R75), and its OPC names its operation. -/

namespace Sys2Proof.Laws.MatchMask

/-- The word of the instruction matches its row of the table of 30_encoding R75. -/
def Statement (i : Instr) : Prop :=
  encode i &&& i.opcode.maskBits = i.opcode.matchBits ∧ opcodeOf (opcField (encode i)) = some i.opcode

/-- The assembled word of an operation that uses a seed and no table. -/
theorem seeded_word (imm : Half) (op : Opcode) (h : op.maskBits = 0x0000FFFF#32)
    (hc : op.matchBits = 0#24 ++ op.code) : commandWord imm 0#3 op &&& op.maskBits = op.matchBits := by
  rw [h, hc]
  apply BitVec.eq_of_getLsbD_eq
  intro i hi
  simp only [commandWord, BitVec.getLsbD_and, BitVec.getLsbD_append]
  interval_cases i <;> simp

/-- The assembled word of KREF and KUNREF. -/
theorem kernel_word (imm : Half) (tsel : BitVec 3) (op : Opcode) (h : op.maskBits = 0x0000F8FF#32)
    (hc : op.matchBits = 0#24 ++ op.code) : commandWord imm tsel op &&& op.maskBits = op.matchBits := by
  rw [h, hc]
  apply BitVec.eq_of_getLsbD_eq
  intro i hi
  simp only [commandWord, BitVec.getLsbD_and, BitVec.getLsbD_append]
  interval_cases i <;> simp

theorem ccitt : Statement .ccitt := by unfold Statement; decide

theorem ccittSeed (seed : Half) : Statement (.ccittSeed seed) :=
  ⟨seeded_word seed .ccittSeed rfl rfl, by simp [encode, Instr.opcode]⟩

theorem x25Ccitt : Statement .x25Ccitt := by unfold Statement; decide

theorem crc16p5935 (seed : Half) : Statement (.crc16p5935 seed) :=
  ⟨seeded_word seed .crc16p5935 rfl rfl, by simp [encode, Instr.opcode]⟩

theorem crc16p755B (seed : Half) : Statement (.crc16p755B seed) :=
  ⟨seeded_word seed .crc16p755B rfl rfl, by simp [encode, Instr.opcode]⟩

theorem crc16p9949Seed (seed : Half) : Statement (.crc16p9949Seed seed) :=
  ⟨seeded_word seed .crc16p9949Seed rfl rfl, by simp [encode, Instr.opcode]⟩

theorem kref (tsel : BitVec 3) (seed : Half) : Statement (.kref tsel seed) :=
  ⟨kernel_word seed tsel .kref rfl rfl, by simp [encode, Instr.opcode]⟩

theorem kunref (tsel : BitVec 3) (seed : Half) : Statement (.kunref tsel seed) :=
  ⟨kernel_word seed tsel .kunref rfl rfl, by simp [encode, Instr.opcode]⟩

theorem tblrd (tsel : BitVec 3) (index : Byte) : Statement (.tblrd tsel index) := by
  refine ⟨?_, by simp [encode, Instr.opcode]⟩
  apply BitVec.eq_of_getLsbD_eq
  intro i hi
  simp only [encode, commandWord, Instr.opcode, Opcode.maskBits, Opcode.matchBits, Opcode.code,
    BitVec.getLsbD_and, BitVec.getLsbD_append]
  interval_cases i <;> simp

end Sys2Proof.Laws.MatchMask
end

