-- ==== Sys2Proof/Laws/Platform.lean ====
section
/-! SUPPORT. The platform's predicates in the terms of spec/20_memory.md R51, R59 and spec/10_state.md R32. -/

namespace Sys2Proof.Machine

theorem crcBase_mod (p : Platform) : p.crcBase % 4 = 0 := by
  simp only [Platform.crcBase, Config.windowBytes]; omega

theorem contains_iff (r : Range) (a : Nat) : r.contains a = true ↔ r.base ≤ a ∧ a < r.base + r.size := by
  simp [Range.contains]

theorem window_contains_iff (p : Platform) (a : Nat) :
    p.window.contains a = true ↔ p.crcBase ≤ a ∧ a < p.crcBase + 64 := contains_iff p.window a

/-- Two ranges meet when some address of the buffer space is in both. -/
theorem meets_iff (r q : Range) :
    r.meets q = true ↔ ∃ a, a < 4294967296 ∧ r.contains a = true ∧ q.contains a = true := by
  simp only [contains_iff, Range.meets, decide_eq_true_eq, Config.bufferSpace]
  constructor
  · intro h
    exact ⟨max r.base q.base, by omega⟩
  · rintro ⟨a, ha⟩
    omega

theorem readable_iff (p : Platform) (a : Nat) :
    p.readable a = true ↔ a < 4294967296 ∧ ∃ r ∈ p.readableRanges, r.contains a = true := by
  simp [Platform.readable]

theorem hasSideEffect_iff (p : Platform) (a : Nat) :
    p.hasSideEffect a = true ↔ ∃ r ∈ p.sideEffectRanges, r.contains a = true := by
  simp [Platform.hasSideEffect]

theorem coversWindow_iff (p : Platform) : p.readableRanges.any (fun r => r.meets p.window) = true ↔
    ∃ a, p.readable a = true ∧ p.window.contains a = true := by
  simp only [List.any_eq_true, meets_iff, readable_iff]
  constructor
  · rintro ⟨r, hr, a, h1, h2, h3⟩; exact ⟨a, ⟨h1, r, hr, h2⟩, h3⟩
  · rintro ⟨a, ⟨h1, r, hr, h2⟩, h3⟩; exact ⟨r, hr, a, h1, h2, h3⟩

theorem coversSideEffect_iff (p : Platform) :
    p.readableRanges.any (fun r => p.sideEffectRanges.any (fun q => r.meets q)) = true ↔
    ∃ a, p.readable a = true ∧ p.hasSideEffect a = true := by
  simp only [List.any_eq_true, meets_iff, readable_iff, hasSideEffect_iff]
  constructor
  · rintro ⟨r, hr, q, hq, a, h1, h2, h3⟩; exact ⟨a, ⟨h1, r, hr, h2⟩, q, hq, h3⟩
  · rintro ⟨a, ⟨h1, r, hr, h2⟩, q, hq, h3⟩; exact ⟨r, hr, q, hq, a, h1, h2, h3⟩

/-- All that `Platform.objection` can answer. -/
theorem objection_cases (p : Platform) :
    (p.objection = some .readableCoversWindow ∧ ∃ a, p.readable a = true ∧ p.window.contains a = true) ∨
    (p.objection = some .readableHasSideEffects ∧ ∃ a, p.readable a = true ∧ p.hasSideEffect a = true) ∨
    (p.objection = none ∧ ∀ a, p.readable a = true → p.window.contains a = false ∧ p.hasSideEffect a = false) := by
  unfold Platform.objection
  split
  · exact .inl ⟨rfl, (coversWindow_iff p).1 ‹_›⟩
  · rename_i hw
    split
    · exact .inr (.inl ⟨rfl, (coversSideEffect_iff p).1 ‹_›⟩)
    · rename_i hs
      refine .inr (.inr ⟨rfl, fun a ha => ⟨?_, ?_⟩⟩)
      · by_contra hc; exact hw ((coversWindow_iff p).2 ⟨a, ha, by simpa using hc⟩)
      · by_contra hc; exact hs ((coversSideEffect_iff p).2 ⟨a, ha, by simpa using hc⟩)

end Sys2Proof.Machine
end

