-- ==== Sys2Proof/Laws/Step.lean ====
section
/-! SUPPORT. Where an access goes, and everything that one access and one step can do. -/

namespace Sys2Proof.Machine

/-! ### Where an access goes -/

/-- An aligned 32-bit access at an aligned offset of the window addresses the register there. -/
theorem target_register (p : Platform) (offset : Nat) (h : offset < 64) (ha : offset % 4 = 0) :
    p.target (p.crcBase + offset) 4 = .register (regAt offset) := by
  have hb := crcBase_mod p
  have : (p.crcBase + offset) % 4 = 0 := by omega
  simp [Platform.target, Platform.window, Range.contains, Config.windowBytes, this, h]

/-- The register of every target that is one. -/
theorem target_eq_register (p : Platform) (addr bytes : Nat) (r : Reg) (h : p.target addr bytes = .register r) :
    ∃ offset, offset < 64 ∧ offset % 4 = 0 ∧ addr = p.crcBase + offset ∧ bytes = 4 ∧ r = regAt offset := by
  have hb := crcBase_mod p
  unfold Platform.target at h
  split at h
  · rename_i hc
    simp only [Bool.and_eq_true, beq_iff_eq, window_contains_iff] at hc
    obtain ⟨⟨⟨hlo, hhi⟩, hal⟩, hby⟩ := hc
    cases h
    exact ⟨addr - p.crcBase, by omega, by omega, by omega, hby, rfl⟩
  · split at h <;> cases h

theorem target_regOffset (p : Platform) (r : Reg) : p.target (p.crcBase + regOffset r) 4 = .register r := by
  have := target_register p (regOffset r) (by cases r <;> decide) (by cases r <;> decide)
  rw [this]
  cases r <;> rfl

/-! ### One access -/

theorem serve_wr (p : Platform) (r : Reg) (v : Word) (s : State) (h : s.platform = p) :
    serve (p.wr r v) s = writeReg r v s := by
  subst h
  simp only [serve, Platform.wr, target_regOffset, serveWrite]

theorem serve_rd (p : Platform) (r : Reg) (s : State) (h : s.platform = p) :
    serve (p.rd r) s = .next (s.reply (s.readReg r)) := by
  subst h
  simp only [serve, Platform.rd, target_regOffset, serveRead]

theorem rangeOk_iff (s : State) : RangeOk s ↔ s.bufferOk = true := rangeOk_iff_bufferOk s

theorem writeReg_halted (r : Reg) (v : Word) (s : State) (h : s.halted = true) : writeReg r v s = .next s := by
  simp [writeReg.eq_def, h]

theorem issue_of_fault (w : Word) (s : State) (c : Cause) (h : s.halted = false) (hd : decode w = .fault c) :
    issue w s = .next (s.raise c w) := by simp [issue, h, hd]

theorem issue_of_instr (w : Word) (s : State) (i : Instr) (h : s.halted = false) (hd : decode w = .instr i) :
    issue w s = exec i s := by simp [issue, h, hd]

/-- All that a write of CMD can do in the running mode. -/
theorem issue_cases (w : Word) (s t : State) (h : issue w s = .next t) :
    (s.halted = true ∧ t = s) ∨
    (s.halted = false ∧ ∃ c, decode w = .fault c ∧ t = s.raise c w) ∨
    (s.halted = false ∧ ∃ i, decode w = .instr i ∧ exec i s = .next t) := by
  unfold issue at h
  split at h
  · cases h; exact .inl ⟨‹_›, rfl⟩
  · rename_i hh
    simp only [Bool.not_eq_true] at hh
    split at h
    · cases h; exact .inr (.inl ⟨hh, _, ‹_›, rfl⟩)
    · exact .inr (.inr ⟨hh, _, ‹_›, h⟩)

/-- A write of CMD always answers a next state. -/
theorem issue_answers_next (w : Word) (s : State) : ∃ t, issue w s = .next t := by
  unfold issue
  split
  · exact ⟨_, rfl⟩
  · split
    · exact ⟨_, rfl⟩
    · exact ⟨_, exec_eq_next _ s⟩

/-- The decoder's instructions are well-formed. -/
theorem decode_wellFormed (w : Word) (i : Instr) (h : decode w = .instr i) : WellFormed i := by
  obtain ⟨op, -, -, hl, rfl⟩ := (decode_eq_instr w i).1 h
  cases op <;> simp_all [buildInstr, WellFormed, Instr.wellFormed, Opcode.usesTsel]

/-- All that a command word can do to a running engine. -/
theorem issue_effects (w : Word) (s t : State) (h : issue w s = .next t) :
    (s.halted = true ∧ t = s) ∨
    (s.halted = false ∧ ∃ c, decode w = .fault c ∧ t = s.raise c w) ∨
    (s.halted = false ∧ s.bufferOk = false ∧ t = s.raise .bounds s.addr) ∨
    (s.halted = false ∧ ∃ raw out, t = s.complete raw out) := by
  rcases issue_cases w s t h with h | h | ⟨hh, i, hi, he⟩
  · exact .inl h
  · exact .inr (.inl h)
  · rcases exec_cases i s t he with ⟨h, -⟩ | ⟨-, hw, -⟩ | ⟨h, hb, -, e⟩ | ⟨h, e⟩
    · rw [h] at hh; cases hh
    · exact absurd (decode_wellFormed w i hi) hw
    · exact .inr (.inr (.inl ⟨h, hb, e⟩))
    · exact .inr (.inr (.inr ⟨h, e⟩))

/-- A new `Readable` is taken if the platform it makes is admissible. -/
theorem serveSetReadable_of_ok (rs : List Range) (s : State) (h : (s.setReadable rs).platform.objection = none) :
    serveSetReadable rs s = .next (s.setReadable rs) := by
  unfold serveSetReadable; rw [h]

/-- A new `Readable` is refused if the platform it makes is not admissible. -/
theorem serveSetReadable_of_objection (rs : List Range) (s : State) (r : Refusal)
    (h : (s.setReadable rs).platform.objection = some r) : serveSetReadable rs s = .refused r := by
  unfold serveSetReadable; rw [h]

/-- All that a new `Readable` can do, if it answers a next state. -/
theorem serveSetReadable_cases (rs : List Range) (s t : State) (h : serveSetReadable rs s = .next t) :
    (s.setReadable rs).platform.objection = none ∧ t = s.setReadable rs := by
  cases ho : (s.setReadable rs).platform.objection with
  | none => rw [serveSetReadable_of_ok rs s ho] at h; cases h; exact ⟨rfl, rfl⟩
  | some r => rw [serveSetReadable_of_objection rs s r ho] at h; cases h

/-- Everything that serving one access or event can do, if it answers a next state. -/
theorem serve_cases (x : Input) (s t : State) (h : serve x s = .next t) :
    (∃ r, (∃ offset, x = .read (s.platform.crcBase + offset) 4 ∧ offset < 64 ∧ offset % 4 = 0 ∧ r = regAt offset) ∧
      t = s.reply (s.readReg r)) ∨
    (∃ r v, (∃ offset, x = .write (s.platform.crcBase + offset) 4 v ∧ offset < 64 ∧ offset % 4 = 0 ∧ r = regAt offset) ∧
      writeReg r v s = .next t) ∨
    (∃ a b, x = .store a b ∧ s.platform.window.contains a.toNat = false ∧ t = s.storeByte a b) ∨
    (∃ rs, (x = .setReadable rs ∧ (s.setReadable rs).platform.objection = none) ∧ t = s.setReadable rs) ∨
    (x = .reset ∧ t = s.applyReset) := by
  cases x with
  | read addr bytes =>
    simp only [serve] at h
    cases ht : s.platform.target addr bytes with
    | register r =>
      obtain ⟨offset, h1, h2, rfl, rfl, h5⟩ := target_eq_register _ _ _ _ ht
      rw [ht] at h
      cases h
      exact .inl ⟨r, ⟨offset, rfl, h1, h2, h5⟩, rfl⟩
    | misaccess => rw [ht] at h; cases h
    | outside => rw [ht] at h; cases h
  | write addr bytes v =>
    simp only [serve] at h
    cases ht : s.platform.target addr bytes with
    | register r =>
      obtain ⟨offset, h1, h2, rfl, rfl, h5⟩ := target_eq_register _ _ _ _ ht
      rw [ht] at h
      exact .inr (.inl ⟨r, v, ⟨offset, rfl, h1, h2, h5⟩, h⟩)
    | misaccess => rw [ht] at h; cases h
    | outside => rw [ht] at h; cases h
  | store a b =>
    simp only [serve, serveStore] at h
    split at h
    · cases h
    · cases h
      exact .inr (.inr (.inl ⟨a, b, rfl, by simp_all, rfl⟩))
  | setReadable rs =>
    obtain ⟨ho, rfl⟩ := serveSetReadable_cases rs s t h
    exact .inr (.inr (.inr (.inl ⟨rs, ⟨rfl, ho⟩, rfl⟩)))
  | reset => cases h; exact .inr (.inr (.inr (.inr ⟨rfl, rfl⟩)))

/-- Everything that an aligned 32-bit host write can do, if it answers a next state. -/
theorem writeReg_cases (r : Reg) (v : Word) (s t : State) (h : writeReg r v s = .next t) :
    (s.halted = true ∧ t = s) ∨
    (s.halted = false ∧ r = .cmd ∧ issue v s = .next t) ∨
    (s.halted = false ∧ r = .addr ∧ t = s.setAddr v) ∨
    (s.halted = false ∧ r = .len ∧ t = s.setLen v) ∨
    (s.halted = false ∧ (r = .result ∨ r = .status ∨ r = .finfo ∨ r = .reserved) ∧ t = s) := by
  unfold writeReg at h
  split at h
  · cases h; exact .inl ⟨‹_›, rfl⟩
  · rename_i hh
    simp only [Bool.not_eq_true] at hh
    cases r with
    | cmd => exact .inr (.inl ⟨hh, rfl, h⟩)
    | addr => cases h; exact .inr (.inr (.inl ⟨hh, rfl, rfl⟩))
    | len => cases h; exact .inr (.inr (.inr (.inl ⟨hh, rfl, rfl⟩)))
    | result => cases h; exact .inr (.inr (.inr (.inr ⟨hh, by simp, rfl⟩)))
    | status => cases h; exact .inr (.inr (.inr (.inr ⟨hh, by simp, rfl⟩)))
    | finfo => cases h; exact .inr (.inr (.inr (.inr ⟨hh, by simp, rfl⟩)))
    | reserved => cases h; exact .inr (.inr (.inr (.inr ⟨hh, by simp, rfl⟩)))

/-- A host write always answers a next state. -/
theorem writeReg_answers_next (r : Reg) (v : Word) (s : State) : ∃ t, writeReg r v s = .next t := by
  unfold writeReg
  split
  · exact ⟨_, rfl⟩
  · cases r with
    | cmd => exact issue_answers_next v s
    | _ => exact ⟨_, rfl⟩

/-- No host write changes the buffer memory, the platform, what is still to be served or what was answered. -/
theorem writeReg_frame (r : Reg) (v : Word) (s t : State) (h : writeReg r v s = .next t) :
    t.mem = s.mem ∧ t.platform = s.platform ∧ t.pending = s.pending ∧ t.replies = s.replies := by
  rcases writeReg_cases r v s t h with ⟨-, rfl⟩ | ⟨-, -, hi⟩ | ⟨-, -, rfl⟩ | ⟨-, -, rfl⟩ | ⟨-, -, rfl⟩
  · exact ⟨rfl, rfl, rfl, rfl⟩
  · rcases issue_effects v s t hi with ⟨-, rfl⟩ | ⟨-, _, -, rfl⟩ | ⟨-, -, rfl⟩ | ⟨-, _, _, rfl⟩ <;> exact ⟨rfl, rfl, rfl, rfl⟩
  all_goals exact ⟨rfl, rfl, rfl, rfl⟩

/-! ### One step -/

theorem step_serve (s : State) (x : Input) (rest : List Input) (hp : s.platform.objection = none)
    (h : s.pending = x :: rest) : step s = serve x (s.withPending rest) := by
  simp [step, hp, h]

theorem step_idle (s : State) (hp : s.platform.objection = none) (h : s.pending = []) : step s = .next s := by
  simp [step, hp, h]

/-- A step that answers a next state serves the oldest input of an admissible platform, or has nothing to serve. -/
theorem step_cases (s t : State) (h : step s = .next t) :
    s.platform.objection = none ∧
      ((s.pending = [] ∧ t = s) ∨ ∃ x rest, s.pending = x :: rest ∧ serve x (s.withPending rest) = .next t) := by
  unfold step at h
  cases ho : s.platform.objection with
  | some r => rw [ho] at h; cases h
  | none =>
    rw [ho] at h
    refine ⟨rfl, ?_⟩
    cases hp : s.pending with
    | nil => rw [hp] at h; cases h; exact .inl ⟨rfl, rfl⟩
    | cons x rest => rw [hp] at h; exact .inr ⟨x, rest, rfl, h⟩

/-- The word of `withFetchWord` is the next command. -/
theorem step_withFetchWord (s : State) (nbits w : Nat) (hp : s.platform.objection = none) :
    step (s.withFetchWord nbits w) = writeReg .cmd (tableWord nbits w) s := by
  rw [step_serve (s.withFetchWord nbits w) (s.platform.wr .cmd (tableWord nbits w)) s.pending hp rfl]
  exact serve_wr s.platform .cmd _ s rfl

/-! ### Several steps -/

theorem core_run_succ_next (M : Host.Core) (k : Nat) (s t : M.State) (h : M.step s = .next t) :
    M.run (k + 1) s = M.run k t := by
  rw [Host.Core.run, h]

theorem core_run_succ_cases (M : Host.Core) (k : Nat) (s t : M.State) (h : M.run (k + 1) s = .next t) :
    ∃ u, M.step s = .next u ∧ M.run k u = .next t := by
  rw [Host.Core.run] at h
  split at h
  · exact ⟨_, ‹_›, h⟩
  · cases h
  · cases h

theorem run_zero (s : State) : Sys2Proof.core.run 0 s = .next s := rfl

theorem run_succ_next (k : Nat) (s t : State) (h : step s = .next t) :
    Sys2Proof.core.run (k + 1) s = Sys2Proof.core.run k t := core_run_succ_next Sys2Proof.core k s t h

/-- A run of one more step that ends in a next state begins with a step that does. -/
theorem run_succ_cases (k : Nat) (s t : State) (h : Sys2Proof.core.run (k + 1) s = .next t) :
    ∃ u, step s = .next u ∧ Sys2Proof.core.run k u = .next t := core_run_succ_cases Sys2Proof.core k s t h

end Sys2Proof.Machine
end

