-- ==== Sys2Proof/Tests/Slice0.lean ====
section
/-! SUPPORT. The model's own tests. Every expected value is the spec's: the encodings of spec/30_encoding.md R74 and R75 written out
bit by bit, and the vectors V1 to V6 and W1 to W7 of spec/95_test_vectors.md. The last part shows, for every obligation with
hypotheses, a concrete input that meets them. -/

namespace Sys2Proof.Tests

open Sys2Proof.Machine

/-! ### Decoding: one word for each operation, from the bit pattern of spec/opcode_table.json -/

theorem test_decode_ccitt : decode 0b0000000000000000_00000_000_00000001#32 = .instr .ccitt := by decide

theorem test_decode_ccittSeed : decode 0b1010101111001101_00000_000_00000010#32 = .instr (.ccittSeed 0xABCD#16) := by decide

theorem test_decode_x25Ccitt : decode 0b0000000000000000_00000_000_00000011#32 = .instr .x25Ccitt := by decide

theorem test_decode_crc16p5935 : decode 0b0011101100100001_00000_000_00000100#32 = .instr (.crc16p5935 0x3B21#16) := by
  decide

theorem test_decode_crc16p755B : decode 0b1111111111111111_00000_000_00000101#32 = .instr (.crc16p755B 0xFFFF#16) := by
  decide

theorem test_decode_crc16p9949Seed : decode 0b0000000000000001_00000_000_00000110#32 =
    .instr (.crc16p9949Seed 0x0001#16) := by decide

theorem test_decode_kref : decode 0b1000101100010011_00000_100_00010000#32 = .instr (.kref 4#3 0x8B13#16) := by decide

theorem test_decode_kunref : decode 0b0001110100001111_00000_001_00010001#32 = .instr (.kunref 1#3 0x1D0F#16) := by decide

theorem test_decode_tblrd : decode 0b00000000_00110001_00000_011_00100000#32 = .instr (.tblrd 3#3 0x31#8) := by decide

theorem test_encode_words :
    encode .ccitt = 0x00000001#32 ∧ encode (.ccittSeed 0x1234#16) = 0x12340002#32 ∧ encode .x25Ccitt = 0x00000003#32 ∧
    encode (.crc16p5935 0x3B21#16) = 0x3B210004#32 ∧ encode (.crc16p755B 0xFFFF#16) = 0xFFFF0005#32 ∧
    encode (.crc16p9949Seed 0xFFFF#16) = 0xFFFF0006#32 ∧ encode (.kref 0#3 0x8B13#16) = 0x8B130010#32 ∧
    encode (.kunref 1#3 0x1D0F#16) = 0x1D0F0111#32 ∧ encode (.tblrd 4#3 0x80#8) = 0x00800420#32 := by decide

/-! ### Decoding: the words that fault (V5, V3, V4) -/

theorem test_decode_illegal : decode 0x00000000#32 = .fault .illegalOpcode ∧ decode 0x00000007#32 = .fault .illegalOpcode ∧
    decode 0x0000F807#32 = .fault .illegalOpcode ∧ decode 0x000000FF#32 = .fault .illegalOpcode := by decide

theorem test_decode_reserved : decode 0x00000F10#32 = .fault .reservedField ∧ decode 0x00010001#32 = .fault .reservedField ∧
    decode 0x00000102#32 = .fault .reservedField ∧ decode 0x0000F803#32 = .fault .reservedField ∧
    decode 0x01000020#32 = .fault .reservedField := by decide

theorem test_decode_bad_tsel : decode 0x00000710#32 = .fault .badTsel ∧ decode 0x00000511#32 = .fault .badTsel ∧
    decode 0x00000520#32 = .fault .badTsel := by decide

/-- A word the decoder refuses is no instruction of the table. -/
theorem test_decodeTableWord : decodeTableWord 32 0x12340002 = some (.ccittSeed 0x1234#16) ∧
    decodeTableWord 32 0x00000710 = none := by decide

/-! ### WellFormed: a legal select and, for each check, a select that names no table (30_encoding R73) -/

theorem test_wellFormed_accepts : WellFormed .ccitt ∧ WellFormed (.kref 4#3 0xFFFF#16) ∧ WellFormed (.kunref 0#3 0#16) ∧
    WellFormed (.tblrd 4#3 0xFF#8) := by decide

theorem test_wellFormed_refuses_kref : ¬ WellFormed (.kref 5#3 0#16) := by decide

theorem test_wellFormed_refuses_kunref : ¬ WellFormed (.kunref 6#3 0#16) := by decide

theorem test_wellFormed_refuses_tblrd : ¬ WellFormed (.tblrd 7#3 0#8) := by decide

/-! ### The states of the tests -/

/-- The platform of V5 and of the programs: `Readable` is 0x1000 .. 0x10FF; the window is at 0x40000000, and reads at 0x8000 ..
0x800F have side effects. -/
def demoPlatform : Platform := { crcBlock := 0x1000000, readableRanges := [⟨0x1000, 0x100⟩], sideEffectRanges := [⟨0x8000, 16⟩] }

/-- "123456789" at 0x1000. -/
def demoMemory : Memory :=
  [(0x1000, 0x31#8), (0x1001, 0x32#8), (0x1002, 0x33#8), (0x1003, 0x34#8), (0x1004, 0x35#8), (0x1005, 0x36#8),
   (0x1006, 0x37#8), (0x1007, 0x38#8), (0x1008, 0x39#8)]

/-- A running engine with ADDR, LEN and what is to be served. -/
def demo (a n : Word) (xs : List Input) : State :=
  { State.reset with addr := a, len := n, mem := demoMemory, platform := demoPlatform, pending := xs }

/-- An engine halted by the word 0x00000710 (BAD_TSEL). -/
def demoHalted (xs : List Input) : State := (demo 0x1000#32 9#32 xs).raise .badTsel 0x00000710#32

/-- RESULT, STATUS and FINFO after the step that serves a write of w to CMD; none where the step stops. -/
def registersAfter (w : Nat) (s : State) : Option (Word × Word × Word) :=
  match step (s.withFetchWord 32 w) with
  | .next t => some (t.readReg .result, t.readReg .status, t.readReg .finfo)
  | .fault _ | .refused _ => none

/-- The state after one step; none where it stops. -/
def stateAfter (s : State) : Option State :=
  match step s with
  | .next t => some t
  | .fault _ | .refused _ => none

/-- Why one step is refused; none where it is not. -/
def refusalOf (s : State) : Option Refusal :=
  match step s with
  | .refused r => some r
  | .next _ | .fault _ => none

/-! ### The commands (V1, V3, V4) -/

theorem test_ccitt_123 : registersAfter 0x00000001 (demo 0x1000#32 3#32 []) = some (0x634B9CB4#32, 1#32, 0#32) := by
  decide

theorem test_ccitt_empty : registersAfter 0x00000001 (demo 0xFFFFFFFF#32 0#32 []) = some (0xFFFF0000#32, 1#32, 0#32) := by
  decide

theorem test_ccittSeed_chained : registersAfter 0x8B130002 (demo 0x1004#32 5#32 []) = some (0x6F91906E#32, 1#32, 0#32) := by
  decide

theorem test_ccittSeed_empty : registersAfter 0x12340002 (demo 0#32 0#32 []) = some (0x1234EDCB#32, 1#32, 0#32) := by
  decide

theorem test_x25Ccitt_123 : registersAfter 0x00000003 (demo 0x1000#32 3#32 []) = some (0x5BCE5BCE#32, 1#32, 0#32) := by
  decide

theorem test_crc16p5935_chained : registersAfter 0x3B210004 (demo 0x1004#32 5#32 []) =
    some (0x5D385D38#32, 1#32, 0#32) := by decide

theorem test_crc16p755B_123 : registersAfter 0x00000005 (demo 0x1000#32 3#32 []) = some (0x158B158B#32, 1#32, 0#32) := by
  decide

theorem test_crc16p9949Seed_123 : registersAfter 0x00000006 (demo 0x1000#32 3#32 []) =
    some (0x6C5C6C5C#32, 1#32, 0#32) := by decide

theorem test_kref_p9949 : registersAfter 0xFFFF0410 (demo 0x1000#32 9#32 []) = some (0x5EB15EB1#32, 1#32, 0#32) := by
  decide

/-- A mismatched table (41_kernels R131). -/
theorem test_kref_mismatched : kernelR .ccittForward 0#16 [0x01#8, 0x02#8] = 0x1411#16 ∧
    kernelU .ccittReverse 0#16 [0x01#8, 0x02#8] = 0xAB1A#16 := by decide

theorem test_kunref_augmented : registersAfter 0x1D0F0111 (demo 0x1000#32 9#32 []) =
    some (0xE5CCE5CC#32, 1#32, 0#32) := by decide

/-- TBLRD ignores ADDR and LEN, which name no admitted range here (V5). -/
theorem test_tblrd_ignores_range : registersAfter 0x00310320 (demo 0xFFFFFFFF#32 0xFFFFFFFF#32 []) =
    some (0xCBE5CBE5#32, 1#32, 0#32) := by decide

/-- Each table at one index (V1); W5 for the order of the bytes; V2 for the steps with every table. -/
theorem test_tables : tableEntry .ccittReverse 0xFF#8 = 0x0F78#16 ∧ tableEntry .ccittForward 0x80#8 = 0x9188#16 ∧
    tableEntry .p5935 0xFF#8 = 0xB314#16 ∧ tableEntry .p755B 0x31#8 = 0xCBE5#16 ∧
    tableEntry .p9949Reverse 0x80#8 = 0x9299#16 := by decide

theorem test_steps : stepR .ccittReverse 0xABCD#16 0x00#8 = 0x1D42#16 ∧ stepR .p9949Reverse 0x1234#16 0x56#8 = 0x3910#16 ∧
    stepU .ccittForward 0xFFFF#16 0x31#8 = 0xC782#16 ∧ stepU .p5935 0x1234#16 0x56#8 = 0x3CAE#16 ∧
    stepU .p755B 0xABCD#16 0x00#8 = 0x7FB1#16 := by decide

theorem test_order : kernelR .ccittReverse 0#16 [0x01#8, 0x02#8] = 0x3ACA#16 ∧
    kernelR .ccittReverse 0#16 [0x02#8, 0x01#8] = 0x2239#16 ∧ kernelU .ccittForward 0#16 [0x01#8, 0x02#8] = 0x1373#16 ∧
    kernelU .ccittForward 0#16 [0x02#8, 0x01#8] = 0x7643#16 := by decide

/-! ### Faults, priority and bounds (V5) -/

theorem test_faults_by_word :
    registersAfter 0x0000F807 (demo 0x1000#32 9#32 []) = some (0#32, 0x00000012#32, 0x0000F807#32) ∧
    registersAfter 0x00000F10 (demo 0x1000#32 9#32 []) = some (0#32, 0x00000022#32, 0x00000F10#32) ∧
    registersAfter 0x00000710 (demo 0#32 5#32 []) = some (0#32, 0x00000032#32, 0x00000710#32) := by decide

theorem test_bounds_faults :
    registersAfter 0x00000001 (demo 0x000010FC#32 8#32 []) = some (0#32, 0x00000042#32, 0x000010FC#32) ∧
    registersAfter 0x00000001 (demo 0xFFFFFFFF#32 2#32 []) = some (0#32, 0x00000042#32, 0xFFFFFFFF#32) ∧
    registersAfter 0x00000001 (demo 0x00001100#32 1#32 []) = some (0#32, 0x00000042#32, 0x00001100#32) := by decide

/-- The last `Readable` byte is in range; its value 0 gives the vector CCITT over 00 of V4. -/
theorem test_bounds_last_byte :
    registersAfter 0x00000001 (demo 0x000010FF#32 1#32 []) = some (0x0F87F078#32, 1#32, 0#32) := by decide

/-- A range may end exactly at 2^32 (20_memory R57). -/
theorem test_bounds_top_of_memory : ({ demoPlatform with readableRanges := [⟨0xFFFFFFF0, 16⟩] } : Platform).admits 0xFFFFFFFF 1 = true ∧
    ({ demoPlatform with readableRanges := [⟨0xFFFFFFF0, 17⟩] } : Platform).admits 0xFFFFFFFF 2 = false := by decide

/-! ### Reset, the halted mode, the window (V6) -/

theorem test_halted_ignores_writes : stateAfter (demoHalted [demoPlatform.wr .addr 0x1000#32]) = some (demoHalted []) ∧
    stateAfter (demoHalted [demoPlatform.command .ccitt]) = some (demoHalted []) := by decide

theorem test_halted_reads_status : stateAfter (demoHalted [demoPlatform.rd .status]) =
    some ((demoHalted []).reply 0x00000032#32) := by decide

theorem test_reset_leaves_halt : stateAfter (demoHalted [.reset]) = some (demo 0#32 0#32 []) := by decide

theorem test_result_write_ignored : stateAfter (demo 0#32 0#32 [demoPlatform.wr .result 0x12345678#32]) =
    some (demo 0#32 0#32 []) := by decide

theorem test_byte_write_of_window_refused : refusalOf (demo 0#32 0#32 [.write (demoPlatform.crcBase + 4) 1 0x10#32]) =
    some .badWindowAccess := by decide

theorem test_window_bytes : ((demo 0#32 0#32 []).complete 0x6F91#16 0x906E#16).windowByte 0x0C = 0x6E#8 ∧
    ((demo 0#32 0#32 []).complete 0x6F91#16 0x906E#16).windowByte 0x0F = 0x6F#8 := by decide

/-- A run ends in no state whose `Readable` covers the window: the event is refused (60_exceptions R168). -/
theorem test_readable_over_window_refused : refusalOf (demo 0#32 0#32 [.setReadable [⟨0x40000000, 4⟩]]) =
    some .readableCoversWindow ∧ refusalOf (demo 0#32 0#32 [.setReadable [⟨0x8000, 1⟩]]) = some .readableHasSideEffects ∧
    stateAfter (demo 0#32 0#32 [.setReadable [⟨0x2000, 1⟩]]) = some ((demo 0#32 0#32 []).setReadable [⟨0x2000, 1⟩]) := by decide

/-! ### Memory -/

theorem test_memory_write_keeps_form : (Memory.write (Memory.write [] 5 0xAA#8) 3 0xBB#8) = [(3, 0xBB#8), (5, 0xAA#8)] ∧
    Memory.write [(3, 0xBB#8), (5, 0xAA#8)] 3 0x00#8 = [(5, 0xAA#8)] ∧
    Memory.read [(3, 0xBB#8), (5, 0xAA#8)] 5 = 0xAA#8 ∧ Memory.read [(3, 0xBB#8)] 4 = 0x00#8 := by decide

theorem test_memory_wf : Memory.wf demoMemory = true ∧ Memory.wf [(3, 0x01#8), (3, 0x02#8)] = false ∧
    Memory.wf [(3, 0x00#8)] = false ∧ Memory.wf [(0x100000000, 0x01#8)] = false := by decide

theorem test_pseudo_commands : encode (ccittRaw 0x8B13#16) = 0x8B130010#32 ∧ encode (x25CcittSeed 0x1D0F#16) = 0x1D0F0111#32 ∧
    (demoPlatform.tblchk 0#3).length = 256 := ⟨by decide, by decide, by simp [Platform.tblchk]⟩

/-! ### Witnesses: for every obligation with hypotheses, concrete inputs that meet them, at the boundary values of its clauses -/

theorem demo_platform_ok (a n : Word) (xs : List Input) : PlatformOk (demo a n xs) :=
  (by decide : demoPlatform.objection = none)

/-- Every byte of the `Readable` range of V5 is admitted. -/
theorem in_range_whole : (demo 0x1000#32 0x100#32 []).bufferOk = true := by
  simp [State.bufferOk, State.rangeAdmitted, Platform.admits, Platform.readable, demo, demoPlatform, State.reset,
    Range.contains, Config.bufferSpace]
  omega

/-- The whole `Readable` range, its last byte, and the empty buffer are in range. -/
theorem demo_in_range : RangeOk (demo 0x1000#32 9#32 []) ∧ RangeOk (demo 0x1000#32 0x100#32 []) ∧
    RangeOk (demo 0x10FF#32 1#32 []) ∧ RangeOk (demo 0xFFFFFFFF#32 0#32 []) := by
  simp only [rangeOk_iff]
  exact ⟨by decide, in_range_whole, by decide, by decide⟩

/-- One byte past the range, and a range past 2^32, are not. -/
theorem demo_out_of_range : ¬ RangeOk (demo 0x10FF#32 2#32 []) ∧ ¬ RangeOk (demo 0x0FFF#32 1#32 []) ∧
    ¬ RangeOk (demo 0xFFFFFFFF#32 2#32 []) := by
  simp only [rangeOk_iff]
  decide

theorem demo_inv (a n : Word) (xs : List Input) : EngineInv (demo a n xs) where
  memory_canonical := test_memory_wf.1
  no_record_while_running _ := ⟨rfl, rfl⟩
  record_while_halted h := by cases h
  no_result_before_valid _ := rfl

theorem demo_halted_explained (xs : List Input) : faultRecordExplained (demoHalted xs) = true := by
  have hd : decode (demoHalted xs).finfo = .fault .badTsel := by show decode 0x00000710#32 = _; decide
  have hc : (demoHalted xs).status.cause = causeCode .badTsel := rfl
  simp [faultRecordExplained, hd, hc]

theorem demo_halted_inv (xs : List Input) : EngineInv (demoHalted xs) where
  memory_canonical := test_memory_wf.1
  no_record_while_running h := by cases h
  record_while_halted _ := demo_halted_explained xs
  no_result_before_valid _ := rfl

theorem witness_ResetEventRestoresEveryRegister :
    PlatformOk (demoHalted [.reset]) ∧ (demoHalted [.reset]).pending = .reset :: [] := ⟨rfl, rfl⟩

theorem witness_DecodeOfEncodeIsTheCommand : WellFormed (.kref 4#3 0xFFFF#16) ∧ WellFormed (.tblrd 0#3 0xFF#8) ∧
    WellFormed (.ccittSeed 0#16) := by decide

theorem witness_EncodeOfDecodeIsTheWord : decode 0xFFFF0411#32 = .instr (.kunref 4#3 0xFFFF#16) := by decide

theorem witness_MatchAndMaskSelectTheOperation :
    (0xFF010020#32 : Word).extractLsb' 0 8 = Opcode.tblrd.code ∧
    (0xFF010020#32 : Word) &&& Opcode.tblrd.maskBits ≠ Opcode.tblrd.matchBits := by decide

theorem witness_NoWordMatchesTwoOperations :
    (0xFFFF0710#32 : Word) &&& Opcode.kref.maskBits = Opcode.kref.matchBits := by decide

theorem witness_UndefinedOpcodesFaultIllegal : (demo 0x1000#32 9#32 []).halted = false ∧
    ∀ w ∈ [0x00000000#32, 0x00000007#32, 0x0000000F#32, 0x00000012#32, 0xFFFFFFFF#32], (w : Word).extractLsb' 0 8 ∉
      [0x01#8, 0x02#8, 0x03#8, 0x04#8, 0x05#8, 0x06#8, 0x10#8, 0x11#8, 0x20#8] := ⟨rfl, by simp⟩

theorem witness_TableSelectNamesTheTables : (demo 0x1000#32 9#32 []).halted = false ∧
    ∀ w ∈ [0x00000510#32, 0xFFFF0711#32, 0x00FF0520#32], (w : Word).extractLsb' 0 8 ∈ [0x10#8, 0x11#8, 0x20#8] ∧
      w.extractLsb' 11 5 = 0#5 ∧ (w.extractLsb' 0 8 = 0x20#8 → w.extractLsb' 24 8 = 0#8) ∧
      5 ≤ (w.extractLsb' 8 3).toNat := ⟨rfl, by simp⟩

/-- A decode fault and a bounds fault. -/
theorem witness_FaultEntryWritesThreeFields :
    (issue 0x00000007#32 (demo 0x1000#32 9#32 []) = .next ((demo 0x1000#32 9#32 []).raise .illegalOpcode 0x00000007#32) ∧
      ((demo 0x1000#32 9#32 []).raise .illegalOpcode 0x00000007#32).halted = true) ∧
    (issue 0x00000001#32 (demo 0x10FF#32 2#32 []) = .next ((demo 0x10FF#32 2#32 []).raise .bounds 0x10FF#32) ∧
      ((demo 0x10FF#32 2#32 []).raise .bounds 0x10FF#32).halted = true) := ⟨⟨rfl, rfl⟩, ⟨rfl, rfl⟩⟩

/-- A word for each of the five clauses, where the conditions meet: an undefined OPC with RSV set; RSV with a bad select; a bad
select with a bad range; a bad range; and none of them (TBLRD whatever the range, a buffer command in range). -/
theorem witness_FirstApplicableFaultIsReported :
    let defined := fun w : Word =>
      w.extractLsb' 0 8 ∈ [0x01#8, 0x02#8, 0x03#8, 0x04#8, 0x05#8, 0x06#8, 0x10#8, 0x11#8, 0x20#8]
    let reserved := fun w : Word => w.extractLsb' 11 5 ≠ 0#5 ∨
      (w.extractLsb' 0 8 ∈ [0x01#8, 0x02#8, 0x03#8, 0x04#8, 0x05#8, 0x06#8] ∧ w.extractLsb' 8 3 ≠ 0#3) ∨
      (w.extractLsb' 0 8 ∈ [0x01#8, 0x03#8] ∧ w.extractLsb' 16 16 ≠ 0#16) ∨
      (w.extractLsb' 0 8 = 0x20#8 ∧ w.extractLsb' 24 8 ≠ 0#8)
    let badTsel := fun w : Word => w.extractLsb' 0 8 ∈ [0x10#8, 0x11#8, 0x20#8] ∧ 4 < (w.extractLsb' 8 3).toNat
    ¬ defined 0x0000F807#32 ∧ (defined 0x00000F10#32 ∧ reserved 0x00000F10#32) ∧
    (defined 0x00000102#32 ∧ reserved 0x00000102#32) ∧ (defined 0x00010001#32 ∧ reserved 0x00010001#32) ∧
    (defined 0x01000020#32 ∧ reserved 0x01000020#32) ∧
    (defined 0x00000510#32 ∧ ¬ reserved 0x00000510#32 ∧ badTsel 0x00000510#32) ∧
    (defined 0x00000410#32 ∧ ¬ reserved 0x00000410#32 ∧ ¬ badTsel 0x00000410#32 ∧
      (0x00000410#32 : Word).extractLsb' 0 8 ≠ 0x20#8) ∧
    (defined 0x00FF0420#32 ∧ ¬ reserved 0x00FF0420#32 ∧ ¬ badTsel 0x00FF0420#32 ∧
      (0x00FF0420#32 : Word).extractLsb' 0 8 = 0x20#8) := by
  intro defined reserved badTsel
  refine ⟨?_, ?_, ?_, ?_, ?_, ?_, ?_, ?_⟩ <;> simp [defined, reserved, badTsel]

/-- A reset, and an access that changes nothing. -/
theorem witness_OnlyResetChangesAHaltedEngine : (demoHalted []).halted = true ∧
    step (demoHalted [.reset]) = .next (demo 0#32 0#32 []) ∧
    step (demoHalted [demoPlatform.wr .addr 0#32]) = .next (demoHalted []) := ⟨rfl, rfl, rfl⟩

theorem witness_FirstFaultRecordIsKeptUntilReset :
    Input.reset ∉ (demoHalted [demoPlatform.wr .addr 0#32, demoPlatform.command .ccitt]).pending ∧
    Sys2Proof.core.run 2 (demoHalted [demoPlatform.wr .addr 0#32, demoPlatform.command .ccitt]) = .next (demoHalted []) :=
  ⟨by decide, rfl⟩

/-- For the nine command obligations: a running engine in range, out of range, and with an empty buffer. -/
theorem witness_commands_state : (demo 0x1000#32 9#32 []).halted = false ∧ RangeOk (demo 0x1000#32 9#32 []) ∧
    (demo 0x10FF#32 2#32 []).halted = false ∧ ¬ RangeOk (demo 0x10FF#32 2#32 []) ∧
    (demo 0xFFFFFFFF#32 0#32 []).halted = false ∧ (demo 0xFFFFFFFF#32 0#32 []).len = 0#32 ∧
    (demoHalted []).halted = true := ⟨rfl, demo_in_range.1, rfl, demo_out_of_range.1, rfl, rfl, rfl⟩

/-- For CcittCommand and X25CcittCommand: the lowest and the highest must-be-zero bit. -/
theorem witness_CcittCommand_X25CcittCommand : ∀ w ∈ [0x00000101#32, 0x80000001#32, 0x00000103#32, 0x80000003#32],
    (w : Word).extractLsb' 0 8 ∈ [0x01#8, 0x03#8] ∧ w.extractLsb' 8 24 ≠ 0#24 := by simp

/-- For the four seeded named variants: the lowest and the highest must-be-zero bit. -/
theorem witness_seededCommands : ∀ w ∈ [0x00000102#32, 0x00008002#32, 0x00000104#32, 0x00008004#32, 0x00000105#32,
    0x00008005#32, 0x00000106#32, 0x00008006#32],
    (w : Word).extractLsb' 0 8 ∈ [0x02#8, 0x04#8, 0x05#8, 0x06#8] ∧ w.extractLsb' 8 8 ≠ 0#8 := by simp

/-- For KrefCommand, KunrefCommand and TblrdCommand: the reserved bits, the last legal and the first illegal select. -/
theorem witness_selectingCommands : (4#3 : BitVec 3).toNat ≤ 4 ∧ 4 < (5#3 : BitVec 3).toNat ∧
    (∀ w ∈ [0x00000810#32, 0x00008011#32, 0x00000820#32], (w : Word).extractLsb' 0 8 ∈ [0x10#8, 0x11#8, 0x20#8] ∧
      w.extractLsb' 11 5 ≠ 0#5) ∧
    ((0x01000020#32 : Word).extractLsb' 0 8 = 0x20#8 ∧ (0x01000020#32 : Word).extractLsb' 24 8 ≠ 0#8) ∧
    (∀ w ∈ [0x00000510#32, 0x00000511#32, 0x00000520#32], (w : Word).extractLsb' 0 8 ∈ [0x10#8, 0x11#8, 0x20#8] ∧
      w.extractLsb' 11 5 = 0#5 ∧ w.extractLsb' 24 8 = 0#8 ∧ w.extractLsb' 8 3 = 5#3) := by simp

theorem witness_IllFormedSelectTakesTheBadTselFault : (demo 0#32 0#32 []).halted = false ∧ ¬ WellFormed (.kref 5#3 0#16) ∧
    ¬ WellFormed (.tblrd 7#3 0xFF#8) := by decide

theorem witness_HaltedEngineIgnoresCommands : (demoHalted []).halted = true := rfl

/-- Commands that complete, fault on the range, fault on the select, and are ignored. -/
theorem witness_CommandFrame :
    exec (.tblrd 0#3 1#8) (demo 0#32 0#32 []) = .next ((demo 0#32 0#32 []).complete 0x1189#16 0x1189#16) ∧
    exec .ccitt (demo 0x10FF#32 2#32 []) = .next ((demo 0x10FF#32 2#32 []).raise .bounds 0x10FF#32) ∧
    exec (.kref 5#3 0#16) (demo 0#32 0#32 []) = .next ((demo 0#32 0#32 []).raise .badTsel 0x00000510#32) ∧
    exec .ccitt (demoHalted []) = .next (demoHalted []) := ⟨rfl, rfl, rfl, rfl⟩

theorem witness_BoundsFaultExactlyWhenNotAdmitted : WellFormed (.kunref 4#3 0#16) ∧
    (Instr.kunref 4#3 0#16).opcode.isBuffer = true ∧ (demo 0x10FF#32 2#32 []).halted = false ∧
    (demo 0x10FF#32 2#32 []).len ≠ 0#32 ∧ (demo 0x10FF#32 1#32 []).len ≠ 0#32 := by decide

theorem witness_ZeroLengthCommandAlwaysSucceeds : WellFormed (.kref 4#3 0xFFFF#16) ∧
    (Instr.kref 4#3 0xFFFF#16).opcode.isBuffer = true ∧ (demo 0xFFFFFFFF#32 0#32 []).halted = false ∧
    (demo 0xFFFFFFFF#32 0#32 []).len = 0#32 := by decide

theorem witness_BufferIsTheBytesFromAddrInOrder : 8 < (demo 0x1000#32 9#32 []).buffer.length := by decide

/-- Two states that differ in RESULT, VALID, and a byte outside the range. -/
theorem witness_ResultDependsOnOperandsOnly :
    let s := demo 0x1000#32 3#32 []
    let s' := ((demo 0x1000#32 3#32 []).complete 1#16 2#16).storeByte 0x1003#32 0xFF#8
    s.halted = false ∧ s'.halted = false ∧ s'.addr = s.addr ∧ s'.len = s.len ∧
    (∀ j, j < s.len.toNat → s'.platform.readable (s.addr.toNat + j) = s.platform.readable (s.addr.toNat + j)) ∧
    (∀ j, j < s.len.toNat → s'.mem.read (s.addr.toNat + j) = s.mem.read (s.addr.toNat + j)) ∧
    s'.result ≠ s.result ∧ s'.mem ≠ s.mem := by
  refine ⟨rfl, rfl, rfl, rfl, fun _ _ => rfl, ?_, by decide, by decide⟩
  exact fun j hj => (by decide : ∀ j < 3, ((demo 0x1000#32 3#32 []).storeByte 0x1003#32 0xFF#8).mem.read (0x1000 + j) =
    (demo 0x1000#32 3#32 []).mem.read (0x1000 + j)) j hj

theorem witness_VariantsEqualTheirKernelCommands : (demo 0xFFFFFFFF#32 0#32 []).halted = false ∧
    (demo 0xFFFFFFFF#32 0#32 []).len = 0#32 ∧ Instr.kref 0#3 0#16 ∈
      [Instr.crc16p5935 0#16, .crc16p755B 0#16, .crc16p9949Seed 0#16, .kref 0#3 0#16, .kunref 1#3 0#16] := by decide

/-- Program P2's split of "123456789", and a split whose first part is empty. -/
theorem witness_SplitBufferChainsThroughRaw : (demo 0x1000#32 0#32 []).halted = false ∧
    (9#32 : Word).toNat = (4#32 : Word).toNat + (5#32 : Word).toNat ∧
    (9#32 : Word).toNat = (0#32 : Word).toNat + (9#32 : Word).toNat ∧
    RangeOk { demo 0x1000#32 0#32 [] with len := 9#32 } := ⟨rfl, rfl, rfl, demo_in_range.1⟩

theorem witness_TablesAreLinearAndInjective : isReflected .p755B = false ∧ isReflected .p9949Reverse = true ∧
    tableEntry .p5935 0xFF#8 = tableEntry .p5935 0xFF#8 := by decide

theorem witness_TableDrivenKernelsEqualBitSerial : isReflected .ccittReverse = true ∧ isReflected .p5935 = false := by decide

theorem witness_StepRunsTheDecodedCommand : PlatformOk (demo 0x1000#32 9#32 [demoPlatform.wr .cmd 0x00000001#32]) ∧
    (demo 0x1000#32 9#32 [demoPlatform.wr .cmd 0x00000001#32]).halted = false ∧
    (demo 0x1000#32 9#32 [demoPlatform.wr .cmd 0x00000001#32]).pending =
      .write demoPlatform.crcBase 4 0x00000001#32 :: [] ∧
    decode 0x00000001#32 = .instr .ccitt ∧ decode 0x00000000#32 = .fault .illegalOpcode ∧
    decodeTableWord 32 0xFFFF0411 = some (.kunref 4#3 0xFFFF#16) := ⟨rfl, rfl, rfl, by decide, by decide, by decide⟩

/-- The first and the last offset, and those where the clauses meet. -/
theorem witness_ReadReturnsTheRegister : ∀ offset ∈ [0x00, 0x04, 0x08, 0x0C, 0x10, 0x14, 0x18, 0x3C],
    offset < 64 ∧ offset % 4 = 0 ∧
    (demo 0#32 0#32 [.read (demoPlatform.crcBase + offset) 4]).platform.objection = none ∧
    (demo 0#32 0#32 [.read (demoPlatform.crcBase + offset) 4]).pending = .read (demoPlatform.crcBase + offset) 4 :: [] := by
  decide

theorem witness_StagingRegistersTakeAnyValue : PlatformOk (demo 0#32 0#32 [demoPlatform.wr .addr 0xDEADBEEF#32]) ∧
    (demo 0#32 0#32 [demoPlatform.wr .addr 0xDEADBEEF#32]).halted = false ∧
    (demo 0#32 0#32 [demoPlatform.wr .addr 0xDEADBEEF#32]).pending =
      .write (demoPlatform.crcBase + 0x04) 4 0xDEADBEEF#32 :: [] ∧
    (demo 0#32 0#32 [demoPlatform.wr .len 0xFFFFFFFF#32]).pending =
      .write (demoPlatform.crcBase + 0x08) 4 0xFFFFFFFF#32 :: [] := ⟨rfl, rfl, rfl, rfl⟩

theorem witness_ReadOnlyAndReservedOffsetsIgnoreWrites : ∀ offset ∈ [0x0C, 0x10, 0x14, 0x18, 0x3C],
    0x0C ≤ offset ∧ offset < 64 ∧ offset % 4 = 0 ∧
    (demo 0#32 0#32 [.write (demoPlatform.crcBase + offset) 4 1#32]).platform.objection = none ∧
    (demo 0#32 0#32 [.write (demoPlatform.crcBase + offset) 4 1#32]).pending =
      .write (demoPlatform.crcBase + offset) 4 1#32 :: [] := by decide

theorem witness_HaltedModeIgnoresWritesUntilReset : (demoHalted []).status.fault = true ∧
    (∀ offset ∈ [0x00, 0x04, 0x3C], offset < 64 ∧ offset % 4 = 0 ∧
      (demoHalted [.write (demoPlatform.crcBase + offset) 4 1#32]).platform.objection = none ∧
      (demoHalted [.read (demoPlatform.crcBase + offset) 4]).platform.objection = none) ∧
    step (demoHalted [.reset]) = .next (demo 0#32 0#32 []) ∧
    step (demoHalted [demoPlatform.rd .len]) = .next ((demoHalted []).reply 9#32) := ⟨rfl, by decide, rfl, rfl⟩

theorem witness_WindowBytesAreLittleEndian : 0x3C % 4 = 0 ∧ 3 < 4 ∧ 7 < 8 := by decide

/-- A byte access at the last byte, a halfword at the first, and an unaligned word that reaches into the window from below; and
the words that end just below the window and begin just above it. -/
theorem witness_OnlyAlignedWindowAccessesAreServed : PlatformOk (demo 0#32 0#32 []) ∧
    (∀ x ∈ [(demoPlatform.crcBase + 63, 1), (demoPlatform.crcBase, 2), (demoPlatform.crcBase - 3, 4)],
      0 < x.2 ∧ (x.1 < demoPlatform.crcBase + 64 ∧ demoPlatform.crcBase < x.1 + x.2) ∧ ¬ (x.2 = 4 ∧ x.1 % 4 = 0)) ∧
    (∀ x ∈ [(demoPlatform.crcBase - 4, 4), (demoPlatform.crcBase + 64, 4)],
      0 < x.2 ∧ ¬ (x.1 < demoPlatform.crcBase + 64 ∧ demoPlatform.crcBase < x.1 + x.2)) :=
  ⟨rfl, by decide, by decide⟩

/-- A platform for each refusal, and one that is not refused. -/
theorem witness_PlatformIsRefusedExactlyForItsReadable :
    Platform.objection { demoPlatform with readableRanges := [⟨0x4000003F, 1⟩] } = some .readableCoversWindow ∧
    Platform.objection { demoPlatform with readableRanges := [⟨0x800F, 1⟩] } = some .readableHasSideEffects ∧
    Platform.objection demoPlatform = none := by decide

/-- A `Readable` that may come, and those that cover the last byte of the window or an address with read side effects. -/
theorem witness_ReadableChangesUnlessRefused : PlatformOk (demo 0#32 0#32 [.setReadable [⟨0x2000, 1⟩]]) ∧
    Platform.objection { demoPlatform with readableRanges := [⟨0x3FFFFFFF, 1⟩, ⟨0x40000040, 1⟩] } = none ∧
    Platform.readable { demoPlatform with readableRanges := [⟨0x4000003F, 1⟩] } 0x4000003F = true ∧
    (Platform.readable { demoPlatform with readableRanges := [⟨0x800F, 1⟩] } 0x800F = true ∧
      demoPlatform.hasSideEffect 0x800F = true) := ⟨rfl, by decide, by decide, by decide⟩

/-- A run that changes `Readable` and ends. -/
theorem witness_RunsStayOnAdmissiblePlatforms :
    step (demo 0#32 0#32 [.setReadable []]) = .next ((demo 0#32 0#32 []).setReadable []) ∧
    RunEnds (demo 0#32 0#32 [.setReadable []]) ((demo 0#32 0#32 []).setReadable []) := ⟨rfl, rfl, rfl⟩

/-- Program P1. -/
theorem witness_CommandUsesStagedValuesAndIsSeenByReads :
    let xs := [demoPlatform.wr .addr 0x1000#32, demoPlatform.wr .len 9#32, demoPlatform.command .ccitt,
      demoPlatform.rd .status, demoPlatform.rd .result]
    PlatformOk (demo 0#32 0#32 xs) ∧ (demo 0#32 0#32 xs).halted = false ∧
    issue 0x00000001#32 { demo 0#32 0#32 xs with addr := 0x1000#32, len := 9#32 } =
      .next ((demo 0x1000#32 9#32 xs).complete 0x6F91#16 0x906E#16) := ⟨rfl, rfl, rfl⟩

theorem witness_EveryMeaningfulRunEnds :
    let xs := [demoPlatform.wr .len 1#32, .store 0x1000#32 0xFF#8, .setReadable [⟨0x2000, 1⟩], demoPlatform.command .ccitt,
      demoPlatform.rd .status, .reset]
    PlatformOk (demo 0#32 0#32 xs) ∧ ∀ x ∈ (demo 0#32 0#32 xs).pending, InputOk demoPlatform x := by
  refine ⟨rfl, ?_⟩
  intro x hx
  simp only [demo, List.mem_cons, List.not_mem_nil, or_false] at hx
  rcases hx with rfl | rfl | rfl | rfl | rfl | rfl
  · exact ⟨0x08, by decide, by decide, rfl, rfl⟩
  · show demoPlatform.window.contains (0x1000#32 : Word).toNat = false
    decide
  · show Platform.objection { demoPlatform with readableRanges := [⟨0x2000, 1⟩] } = none
    decide
  · exact ⟨0x00, by decide, by decide, rfl, rfl⟩
  · exact ⟨0x10, by decide, by decide, rfl, rfl⟩
  · trivial

theorem witness_OnlyStoresChangeMemory : EngineInv (demo 0#32 0#32 [.store 0xFFFFFFFF#32 0xAA#8]) ∧
    step (demo 0#32 0#32 [.store 0xFFFFFFFF#32 0xAA#8]) =
      .next { demo 0#32 0#32 [] with mem := demoMemory.write 0xFFFFFFFF 0xAA#8 } ∧
    (demoMemory.write 0xFFFFFFFF 0xAA#8).read 0xFFFFFFFF ≠ demoMemory.read 0xFFFFFFFF :=
  ⟨demo_inv _ _ _, rfl, by decide⟩

/-- The first and the last address outside the window on each side of it, and the first and the last inside. -/
theorem witness_StoreWritesOneByte : PlatformOk (demo 0#32 0#32 [.store 0#32 0xAA#8]) ∧
    EngineInv (demo 0#32 0#32 [.store 0#32 0xAA#8]) ∧
    (∀ a ∈ [0, 0x3FFFFFFF, 0x40000040, 0xFFFFFFFF], ¬ (demoPlatform.crcBase ≤ a ∧ a < demoPlatform.crcBase + 64)) ∧
    (∀ a ∈ [0x40000000, 0x4000003F], demoPlatform.crcBase ≤ a ∧ a < demoPlatform.crcBase + 64) :=
  ⟨rfl, demo_inv _ _ _, by decide, by decide⟩

theorem witness_StagingChangesOnlyByHostWriteOrReset :
    step (demo 0#32 0#32 [demoPlatform.wr .addr 1#32]) = .next (demo 1#32 0#32 []) ∧
    step (demo 0#32 0#32 [demoPlatform.wr .len 1#32]) = .next (demo 0#32 1#32 []) ∧
    step (demo 1#32 1#32 [.reset]) = .next (demo 0#32 0#32 []) := ⟨rfl, rfl, rfl⟩

/-- A command that succeeds and one that faults. -/
theorem witness_StatusAndResultChangeOnlyByCommandOrReset :
    step (demo 0#32 0#32 [demoPlatform.command .ccitt]) = .next ((demo 0#32 0#32 []).complete 0xFFFF#16 0#16) ∧
    step (demo 0#32 0#32 [demoPlatform.wr .cmd 0#32]) = .next ((demo 0#32 0#32 []).raise .illegalOpcode 0#32) ∧
    (∀ rest, (demo 0#32 0#32 [demoPlatform.wr .cmd 0#32]).pending ≠ .reset :: rest) :=
  ⟨rfl, rfl, fun _ h => by cases h⟩

theorem witness_CanonicalMemoriesAreEqualIfTheyReadEqual : demoMemory.wf = true ∧
    (demoMemory.write 0x1000 0xFF#8).write 0x1000 0x31#8 = demoMemory := by decide

/-- The step of a command from a state of the invariant, and of a halted engine. -/
theorem witness_StepKeepsTheInvariant : EngineInv (demo 0#32 0#32 [demoPlatform.command .ccitt]) ∧
    step (demo 0#32 0#32 [demoPlatform.command .ccitt]) = .next ((demo 0#32 0#32 []).complete 0xFFFF#16 0#16) ∧
    EngineInv (demoHalted [demoPlatform.rd .finfo]) ∧
    step (demoHalted [demoPlatform.rd .finfo]) = .next ((demoHalted []).reply 0x00000710#32) :=
  ⟨demo_inv _ _ _, rfl, demo_halted_inv _, rfl⟩

end Sys2Proof.Tests
end

section
/-! SUPPORT. Proofs of the statements about the engine's state: its registers, what a step may change, the halted mode and the
invariant (spec/10_state.md). One relation, `ServeEffect`, says what serving one access or event can do; the statements about
every step are read off its cases. -/

namespace Sys2Proof.Machine

/-! ### The registers at their offsets (10_state R32) -/

/-- A named register lies at one offset only. -/
theorem eq_regOffset_of_regAt {offset : Nat} {r : Reg} (h : regAt offset = r) (hr : r ≠ .reserved) :
    offset = regOffset r := by
  unfold regAt at h
  split at h <;> subst h
  case h_7 => exact absurd rfl hr
  all_goals rfl

theorem regAt_reserved {offset : Nat} (h : 0x18 ≤ offset) : regAt offset = .reserved := by
  cases hr : regAt offset with
  | reserved => rfl
  | _ => exact absurd (eq_regOffset_of_regAt hr nofun) (by simp only [regOffset]; omega)

/-- From 0x0C on there is no register that a host write changes. -/
theorem le_of_regAt_readOnly {offset : Nat} (hal : offset % 4 = 0)
    (h : regAt offset = .result ∨ regAt offset = .status ∨ regAt offset = .finfo ∨ regAt offset = .reserved) :
    0x0C ≤ offset := by
  by_contra hlt
  have hoff : offset = 0x00 ∨ offset = 0x04 ∨ offset = 0x08 := by omega
  rcases hoff with rfl | rfl | rfl <;> simp [regAt] at h

theorem toNat_append_add {m n : Nat} (x : BitVec m) (y : BitVec n) :
    (x ++ y).toNat = x.toNat * 2 ^ n + y.toNat := by
  rw [BitVec.toNat_append, ← Nat.shiftLeft_add_eq_or_of_lt y.isLt, Nat.shiftLeft_eq]

theorem resultWord_toNat (r : Result) : (resultWord r).toNat = 65536 * r.raw.toNat + r.out.toNat := by
  rw [resultWord, toNat_append_add]; omega

theorem statusWord_toNat (st : Status) :
    (statusWord st).toNat = 16 * st.cause.toNat + 2 * st.fault.toNat + st.valid.toNat := by
  simp only [statusWord, toNat_append_add, BitVec.toNat_ofNat, BitVec.toNat_ofBool]; omega

/-! ### The step of an aligned 32-bit access to the window -/

section access
variable {s : State} {offset : Nat} {rest : List Input}

theorem step_read (hp : PlatformOk s) (hlt : offset < 64) (hal : offset % 4 = 0)
    (h : s.pending = .read (s.platform.crcBase + offset) 4 :: rest) :
    step s = .next ((s.withPending rest).reply (s.readReg (regAt offset))) := by
  rw [step_serve s _ rest hp h]
  simp only [serve, State.withPending_platform, target_register _ _ hlt hal, serveRead]
  rfl

theorem step_write {v : Word} (hp : PlatformOk s) (hlt : offset < 64) (hal : offset % 4 = 0)
    (h : s.pending = .write (s.platform.crcBase + offset) 4 v :: rest) :
    step s = writeReg (regAt offset) v (s.withPending rest) := by
  rw [step_serve s _ rest hp h]
  simp only [serve, State.withPending_platform, target_register _ _ hlt hal, serveWrite]

end access

theorem writeReg_cmd {s : State} (w : Word) (h : s.halted = false) : writeReg .cmd w s = issue w s := by
  simp [writeReg, h]

theorem writeReg_addr {s : State} (v : Word) (h : s.halted = false) : writeReg .addr v s = .next (s.setAddr v) := by
  simp [writeReg, h]

theorem writeReg_len {s : State} (v : Word) (h : s.halted = false) : writeReg .len v s = .next (s.setLen v) := by
  simp [writeReg, h]

theorem writeReg_readOnly {offset : Nat} (v : Word) (s : State) (h : 0x0C ≤ offset) :
    writeReg (regAt offset) v s = .next s := by
  cases hh : s.halted with
  | true => exact writeReg_halted _ v s hh
  | false =>
    cases hr : regAt offset with
    | cmd => exact absurd (eq_regOffset_of_regAt hr nofun) (by simp only [regOffset]; omega)
    | addr => exact absurd (eq_regOffset_of_regAt hr nofun) (by simp only [regOffset]; omega)
    | len => exact absurd (eq_regOffset_of_regAt hr nofun) (by simp only [regOffset]; omega)
    | _ => simp [writeReg, hh]

/-! ### What one access or event, and so one step, can do -/

/-- Everything that serving an access or event in `s` can do, with the condition for it. -/
inductive ServeEffect (s : State) : Input → State → Prop
  | read (offset : Nat) : offset < 64 → offset % 4 = 0 →
      ServeEffect s (.read (s.platform.crcBase + offset) 4) (s.reply (s.readReg (regAt offset)))
  | ignoredWrite (offset : Nat) (v : Word) : offset < 64 → offset % 4 = 0 → s.halted = true ∨ 0x0C ≤ offset →
      ServeEffect s (.write (s.platform.crcBase + offset) 4 v) s
  | setAddr (v : Word) : s.halted = false → ServeEffect s (s.platform.wr .addr v) (s.setAddr v)
  | setLen (v : Word) : s.halted = false → ServeEffect s (s.platform.wr .len v) (s.setLen v)
  | decodeFault (w : Word) (c : Cause) : s.halted = false → decode w = .fault c →
      ServeEffect s (s.platform.wr .cmd w) (s.raise c w)
  | boundsFault (w : Word) (i : Instr) : s.halted = false → decode w = .instr i → s.bufferOk = false →
      ServeEffect s (s.platform.wr .cmd w) (s.raise .bounds s.addr)
  | complete (w : Word) (i : Instr) (raw out : Half) : s.halted = false → decode w = .instr i →
      ServeEffect s (s.platform.wr .cmd w) (s.complete raw out)
  | store (a : Word) (b : Byte) : s.platform.window.contains a.toNat = false →
      ServeEffect s (.store a b) (s.storeByte a b)
  | setReadable (ranges : List Range) : (s.setReadable ranges).platform.objection = none →
      ServeEffect s (.setReadable ranges) (s.setReadable ranges)
  | reset : ServeEffect s .reset s.applyReset

theorem serveEffect_of_issue {w : Word} {s t : State} (hh : s.halted = false) (h : issue w s = .next t) :
    ServeEffect s (s.platform.wr .cmd w) t := by
  rcases issue_cases w s t h with ⟨hh', -⟩ | ⟨-, c, hd, rfl⟩ | ⟨-, i, hd, he⟩
  · simp [hh] at hh'
  · exact .decodeFault w c hh hd
  · rcases exec_cases i s t he with ⟨hh', -⟩ | ⟨-, hw, -⟩ | ⟨-, hb, -, rfl⟩ | ⟨-, raw, out, rfl⟩
    · simp [hh] at hh'
    · exact absurd (decode_wellFormed w i hd) hw
    · exact .boundsFault w i hh hd hb
    · exact .complete w i raw out hh hd

theorem serveEffect_of_writeReg {offset : Nat} {v : Word} {s t : State} (hlt : offset < 64) (hal : offset % 4 = 0)
    (h : writeReg (regAt offset) v s = .next t) :
    ServeEffect s (.write (s.platform.crcBase + offset) 4 v) t := by
  rcases writeReg_cases _ v s t h with ⟨hh, rfl⟩ | ⟨hh, hr, hi⟩ | ⟨hh, hr, rfl⟩ | ⟨hh, hr, rfl⟩ | ⟨-, hr, rfl⟩
  · exact .ignoredWrite offset v hlt hal (.inl hh)
  · obtain rfl := eq_regOffset_of_regAt hr nofun
    exact serveEffect_of_issue hh hi
  · obtain rfl := eq_regOffset_of_regAt hr nofun
    exact .setAddr v hh
  · obtain rfl := eq_regOffset_of_regAt hr nofun
    exact .setLen v hh
  · exact .ignoredWrite offset v hlt hal (.inr (le_of_regAt_readOnly hal hr))

theorem serveEffect_of_serve {x : Input} {s t : State} (h : serve x s = .next t) : ServeEffect s x t := by
  rcases serve_cases x s t h with ⟨_, ⟨offset, rfl, hlt, hal, rfl⟩, rfl⟩ | ⟨_, v, ⟨offset, rfl, hlt, hal, rfl⟩, hw⟩ |
    ⟨a, b, rfl, hout, rfl⟩ | ⟨ranges, ⟨rfl, hok⟩, rfl⟩ | ⟨rfl, rfl⟩
  · exact .read offset hlt hal
  · exact serveEffect_of_writeReg hlt hal hw
  · exact .store a b hout
  · exact .setReadable ranges hok
  · exact .reset

/-- A step that answers a next state had nothing to serve, or served the oldest input in the state with that input taken off. -/
theorem step_effect {s t : State} (h : step s = .next t) :
    (s.pending = [] ∧ t = s) ∨ ∃ x rest, s.pending = x :: rest ∧ ServeEffect (s.withPending rest) x t := by
  obtain ⟨-, hidle | ⟨x, rest, hx, hs⟩⟩ := step_cases s t h
  · exact .inl hidle
  · exact .inr ⟨x, rest, hx, serveEffect_of_serve hs⟩

/-! ### The invariant -/

/-- The invariant speaks of the registers and the buffer memory only. -/
theorem EngineInv.congr {s t : State} (h : EngineInv s) (haddr : t.addr = s.addr) (hlen : t.len = s.len)
    (hresult : t.result = s.result) (hstatus : t.status = s.status) (hfinfo : t.finfo = s.finfo)
    (hmem : t.mem.wf = true) : EngineInv t where
  memory_canonical := hmem
  no_record_while_running := by rw [hstatus, hfinfo]; exact h.no_record_while_running
  record_while_halted := by
    unfold faultRecordExplained
    rw [hstatus, hfinfo, haddr, hlen]
    exact h.record_while_halted
  no_result_before_valid := by rw [hstatus, hresult]; exact h.no_result_before_valid

theorem EngineInv.withPending {s : State} (h : EngineInv s) (xs : List Input) : EngineInv (s.withPending xs) :=
  h.congr rfl rfl rfl rfl rfl h.memory_canonical

/-- A running engine has no record to explain, so ADDR and LEN are free. -/
theorem EngineInv.of_running {s t : State} (h : EngineInv s) (hh : s.halted = false)
    (hresult : t.result = s.result) (hstatus : t.status = s.status) (hfinfo : t.finfo = s.finfo)
    (hmem : t.mem = s.mem) : EngineInv t where
  memory_canonical := hmem ▸ h.memory_canonical
  no_record_while_running := by rw [hstatus, hfinfo]; exact h.no_record_while_running
  record_while_halted := by
    rw [hstatus]
    exact fun hf => absurd (hf.symm.trans hh) nofun
  no_result_before_valid := by rw [hstatus, hresult]; exact h.no_result_before_valid

/-- A fault keeps the invariant when its record explains itself (60_exceptions R161). -/
theorem EngineInv.raise {s : State} (h : EngineInv s) {c : Cause} {info : Word}
    (hrec : faultRecordExplained (s.raise c info) = true) : EngineInv (s.raise c info) where
  memory_canonical := h.memory_canonical
  no_record_while_running := nofun
  record_while_halted _ := hrec
  no_result_before_valid := h.no_result_before_valid

theorem faultRecordExplained_decodeFault {w : Word} {c : Cause} (s : State) (hd : decode w = .fault c) :
    faultRecordExplained (s.raise c w) = true := by
  simp [faultRecordExplained, hd]

/-- BOUNDS is raised only with LEN > 0 (20_memory R58). -/
theorem faultRecordExplained_bounds {s : State} (hb : s.bufferOk = false) :
    faultRecordExplained (s.raise .bounds s.addr) = true := by
  have hlen : s.len ≠ 0#32 := fun h0 => by simp [State.bufferOk, h0] at hb
  simp [faultRecordExplained, hlen]

theorem EngineInv.complete {s : State} (h : EngineInv s) (hh : s.halted = false) (raw out : Half) :
    EngineInv (s.complete raw out) where
  memory_canonical := h.memory_canonical
  no_record_while_running _ := h.no_record_while_running hh
  record_while_halted hf := absurd (hf.symm.trans hh) nofun
  no_result_before_valid := nofun

theorem EngineInv.applyReset {s : State} (h : EngineInv s) : EngineInv s.applyReset where
  memory_canonical := h.memory_canonical
  no_record_while_running _ := ⟨rfl, rfl⟩
  record_while_halted := nofun
  no_result_before_valid _ := rfl

theorem ServeEffect.keeps_inv {x : Input} {s t : State} (he : ServeEffect s x t) (h : EngineInv s) : EngineInv t := by
  cases he with
  | read => exact h.congr rfl rfl rfl rfl rfl h.memory_canonical
  | ignoredWrite => exact h
  | setAddr v hh => exact h.of_running hh rfl rfl rfl rfl
  | setLen v hh => exact h.of_running hh rfl rfl rfl rfl
  | decodeFault w c hh hd => exact h.raise (faultRecordExplained_decodeFault s hd)
  | boundsFault w i hh hd hb => exact h.raise (faultRecordExplained_bounds hb)
  | complete w i raw out hh hd => exact h.complete hh raw out
  | store a b => exact h.congr rfl rfl rfl rfl rfl (write_keeps_wf s.mem a b h.memory_canonical)
  | setReadable => exact h.congr rfl rfl rfl rfl rfl h.memory_canonical
  | reset => exact h.applyReset

/-- Settles O54, case by case over what the step served. -/
theorem stepKeepsTheInvariant : Obligations.StepKeepsTheInvariant := by
  intro s t hinv h
  rcases step_effect h with ⟨-, rfl⟩ | ⟨x, rest, -, he⟩
  · exact hinv
  · exact he.keeps_inv (hinv.withPending rest)

/-- Settles O53. -/
theorem resetMeetsTheInvariant : Obligations.ResetMeetsTheInvariant where
  memory_canonical := rfl
  no_record_while_running _ := ⟨rfl, rfl⟩
  record_while_halted := nofun
  no_result_before_valid _ := rfl

/-- Settles O1. -/
theorem resetStateHoldsTheResetValues : Obligations.ResetStateHoldsTheResetValues := by
  unfold Obligations.ResetStateHoldsTheResetValues
  decide

/-! ### What a step may change -/

/-- In the halted mode only reset touches a register (60_exceptions R162, R164). -/
theorem ServeEffect.of_halted {x : Input} {s t : State} (he : ServeEffect s x t) (hh : s.halted = true) :
    (x = .reset ∧ t.halted = false) ∨
    (t.halted = true ∧ t.status = s.status ∧ t.finfo = s.finfo ∧ t.result = s.result ∧ t.addr = s.addr ∧
      t.len = s.len) := by
  cases he with
  | reset => exact .inl ⟨rfl, rfl⟩
  | read => exact .inr ⟨hh, rfl, rfl, rfl, rfl, rfl⟩
  | ignoredWrite => exact .inr ⟨hh, rfl, rfl, rfl, rfl, rfl⟩
  | store => exact .inr ⟨hh, rfl, rfl, rfl, rfl, rfl⟩
  | setReadable => exact .inr ⟨hh, rfl, rfl, rfl, rfl, rfl⟩
  | setAddr v hr => exact absurd (hh.symm.trans hr) nofun
  | setLen v hr => exact absurd (hh.symm.trans hr) nofun
  | decodeFault w c hr => exact absurd (hh.symm.trans hr) nofun
  | boundsFault w i hr => exact absurd (hh.symm.trans hr) nofun
  | complete w i raw out hr => exact absurd (hh.symm.trans hr) nofun

/-- Settles O12. -/
theorem onlyResetChangesAHaltedEngine : Obligations.OnlyResetChangesAHaltedEngine := by
  intro s t hh h
  rcases step_effect h with ⟨-, rfl⟩ | ⟨x, rest, hx, he⟩
  · exact .inr ⟨hh, rfl, rfl, rfl, rfl, rfl⟩
  · rcases he.of_halted hh with ⟨rfl, hrun⟩ | hsame
    · exact .inl ⟨rest, hx, hrun⟩
    · exact .inr hsame

theorem ServeEffect.addr_cases {x : Input} {s t : State} (he : ServeEffect s x t) :
    t.addr = s.addr ∨ x = .reset ∨ (s.halted = false ∧ x = s.platform.wr .addr t.addr) := by
  cases he with
  | reset => exact .inr (.inl rfl)
  | setAddr v hh => exact .inr (.inr ⟨hh, rfl⟩)
  | _ => exact .inl rfl

theorem ServeEffect.len_cases {x : Input} {s t : State} (he : ServeEffect s x t) :
    t.len = s.len ∨ x = .reset ∨ (s.halted = false ∧ x = s.platform.wr .len t.len) := by
  cases he with
  | reset => exact .inr (.inl rfl)
  | setLen v hh => exact .inr (.inr ⟨hh, rfl⟩)
  | _ => exact .inl rfl

/-- Settles O50. -/
theorem stagingChangesOnlyByHostWriteOrReset : Obligations.StagingChangesOnlyByHostWriteOrReset := by
  intro s t h
  rcases step_effect h with ⟨-, rfl⟩ | ⟨x, rest, hx, he⟩
  · exact ⟨fun hne => absurd rfl hne, fun hne => absurd rfl hne⟩
  · constructor
    · intro hne
      rcases he.addr_cases with hsame | rfl | ⟨hh, rfl⟩
      · exact absurd hsame hne
      · exact .inl ⟨rest, hx⟩
      · exact .inr ⟨hh, rest, hx⟩
    · intro hne
      rcases he.len_cases with hsame | rfl | ⟨hh, rfl⟩
      · exact absurd hsame hne
      · exact .inl ⟨rest, hx⟩
      · exact .inr ⟨hh, rest, hx⟩

theorem ServeEffect.result_valid_cases {x : Input} {s t : State} (he : ServeEffect s x t) :
    (t.result = s.result ∧ t.status.valid = s.status.valid) ∨ x = .reset ∨
    (s.halted = false ∧ t.halted = false ∧ t.status.valid = true ∧
      ∃ w i, x = s.platform.wr .cmd w ∧ decode w = .instr i) := by
  cases he with
  | reset => exact .inr (.inl rfl)
  | complete w i raw out hh hd => exact .inr (.inr ⟨hh, hh, rfl, w, i, rfl, hd⟩)
  | _ => exact .inl ⟨rfl, rfl⟩

theorem ServeEffect.record_cases {x : Input} {s t : State} (he : ServeEffect s x t) :
    (t.status.fault = s.status.fault ∧ t.status.cause = s.status.cause ∧ t.finfo = s.finfo) ∨ x = .reset ∨
    (s.halted = false ∧ t.halted = true ∧ t.result = s.result ∧ t.status.valid = s.status.valid ∧
      ∃ w, x = s.platform.wr .cmd w) := by
  cases he with
  | reset => exact .inr (.inl rfl)
  | decodeFault w c hh => exact .inr (.inr ⟨hh, rfl, rfl, rfl, w, rfl⟩)
  | boundsFault w i hh => exact .inr (.inr ⟨hh, rfl, rfl, rfl, w, rfl⟩)
  | _ => exact .inl ⟨rfl, rfl, rfl⟩

/-- Settles O51. -/
theorem statusAndResultChangeOnlyByCommandOrReset : Obligations.StatusAndResultChangeOnlyByCommandOrReset := by
  intro s t h hnoReset
  rcases step_effect h with ⟨-, rfl⟩ | ⟨x, rest, hx, he⟩
  · simp
  · constructor
    · intro hne
      rcases he.result_valid_cases with ⟨hres, hval⟩ | rfl | ⟨hh, hh', hval, w, i, rfl, hd⟩
      · exact absurd hne (not_or.2 ⟨not_not.2 hres, not_not.2 hval⟩)
      · exact absurd hx (hnoReset rest)
      · exact ⟨hh, hh', hval, w, i, rest, hx, hd⟩
    · intro hne
      rcases he.record_cases with ⟨hfault, hcause, hfinfo⟩ | rfl | ⟨hh, hh', hres, hval, w, rfl⟩
      · exact absurd hne (not_or.2 ⟨not_not.2 hfault, not_or.2 ⟨not_not.2 hcause, not_not.2 hfinfo⟩⟩)
      · exact absurd hx (hnoReset rest)
      · exact ⟨hh, hh', hres, hval, w, rest, hx⟩

/-! ### Host accesses -/

/-- Settles O39. -/
theorem readReturnsTheRegister : Obligations.ReadReturnsTheRegister := by
  intro s offset rest hp hlt hal h
  refine ⟨s.readReg (regAt offset), step_read hp hlt hal h, ?_, ?_, ?_, ?_, ?_, ?_, ?_⟩
  · rintro rfl; rfl
  · rintro rfl; rfl
  · rintro rfl; rfl
  · rintro rfl; exact resultWord_toNat s.result
  · rintro rfl; exact statusWord_toNat s.status
  · rintro rfl; rfl
  · intro hge; rw [regAt_reserved hge]; rfl

/-- Settles O40. -/
theorem stagingRegistersTakeAnyValue : Obligations.StagingRegistersTakeAnyValue := by
  intro s v rest hp hh
  constructor
  · intro h
    exact (step_write hp (by decide) (by decide) h).trans (writeReg_addr v hh)
  · intro h
    exact (step_write hp (by decide) (by decide) h).trans (writeReg_len v hh)

/-- Settles O41. -/
theorem readOnlyAndReservedOffsetsIgnoreWrites : Obligations.ReadOnlyAndReservedOffsetsIgnoreWrites := by
  intro s offset v rest hp hge hlt hal
  constructor
  · intro h
    exact (step_write hp hlt hal h).trans (writeReg_readOnly v _ hge)
  · intro hres h
    rw [step_read hp hlt hal h, regAt_reserved hres]
    rfl

/-- Settles O42. -/
theorem haltedModeIgnoresWritesUntilReset : Obligations.HaltedModeIgnoresWritesUntilReset := by
  refine ⟨fun s => rfl, fun s offset v rest hp hh hlt hal => ⟨fun h => ?_, fun h => ?_⟩, fun s t hh h => ?_⟩
  · exact (step_write hp hlt hal h).trans (writeReg_halted _ v _ hh)
  · exact step_read hp hlt hal h
  · constructor
    · intro hrun
      rcases onlyResetChangesAHaltedEngine s t hh h with ⟨rest, hx, -⟩ | ⟨hh', -⟩
      · exact ⟨rest, hx⟩
      · exact absurd (hrun.symm.trans hh') nofun
    · rintro ⟨rest, hx⟩
      rw [step_serve s .reset rest (step_cases s t h).1 hx] at h
      cases h
      rfl

/-- An access that touches the window but is not aligned 32-bit (10_state R35; log 19). -/
theorem target_misaccess {p : Platform} {addr bytes : Nat} (hlo : p.crcBase < addr + bytes)
    (hhi : addr < p.crcBase + 64) (hbad : ¬ (bytes = 4 ∧ addr % 4 = 0)) : p.target addr bytes = .misaccess := by
  have hnot : (p.window.contains addr && addr % 4 == 0 && bytes == 4) = false := by
    simp only [Bool.and_eq_false_iff, beq_eq_false_iff_ne]; tauto
  have htouch : p.crcBase < addr + max bytes 1 := by omega
  simp [Platform.target, hnot, hhi, htouch, Config.windowBytes]

/-- An access that touches no byte of the window (log 8). -/
theorem target_outside {p : Platform} {addr bytes : Nat} (hpos : 0 < bytes)
    (hout : ¬ (addr < p.crcBase + 64 ∧ p.crcBase < addr + bytes)) : p.target addr bytes = .outside := by
  have hnot : p.window.contains addr = false := by
    rw [Bool.eq_false_iff, ne_eq, window_contains_iff]; omega
  have htouch : ¬ (addr < p.crcBase + 64 ∧ p.crcBase < addr + max bytes 1) := by
    rwa [Nat.max_eq_left hpos]
  rw [Platform.target, if_neg (by simp [hnot]), if_neg (by simpa [Config.windowBytes] using htouch)]

section refusedAccess
variable {s : State} {addr bytes : Nat} {v : Word} {rest : List Input}

theorem step_misaccess (hp : PlatformOk s)
    (h : s.pending = .read addr bytes :: rest ∨ s.pending = .write addr bytes v :: rest)
    (ht : s.platform.target addr bytes = .misaccess) : step s = .refused .badWindowAccess := by
  rcases h with h | h
  · simp [step_serve s _ rest hp h, serve, ht, serveRead]
  · simp [step_serve s _ rest hp h, serve, ht, serveWrite]

theorem step_outside (hp : PlatformOk s)
    (h : s.pending = .read addr bytes :: rest ∨ s.pending = .write addr bytes v :: rest)
    (ht : s.platform.target addr bytes = .outside) : step s = .refused .outsideWindow := by
  rcases h with h | h
  · simp [step_serve s _ rest hp h, serve, ht, serveRead]
  · simp [step_serve s _ rest hp h, serve, ht, serveWrite]

end refusedAccess

/-- Settles O44. -/
theorem onlyAlignedWindowAccessesAreServed : Obligations.OnlyAlignedWindowAccessesAreServed := by
  intro s addr bytes v rest hp hpos h
  constructor
  · rintro ⟨hhi, hlo⟩ hbad
    exact step_misaccess hp h (target_misaccess hlo hhi hbad)
  · intro hout
    exact step_outside hp h (target_outside hpos hout)

/-! ### Commands -/

/-- Settles O25, over the four things a command can do. -/
theorem commandFrame : Obligations.CommandFrame := by
  intro i s t h
  rcases exec_cases i s t h with ⟨-, rfl⟩ | ⟨hh, -, rfl⟩ | ⟨hh, -, -, rfl⟩ | ⟨-, raw, out, rfl⟩
  · exact ⟨rfl, rfl, fun _ => rfl, rfl, rfl, rfl, rfl, .inl ⟨rfl, rfl, rfl⟩⟩
  · exact ⟨rfl, rfl, fun _ => rfl, rfl, rfl, rfl, rfl, .inr ⟨rfl, hh, rfl, rfl⟩⟩
  · exact ⟨rfl, rfl, fun _ => rfl, rfl, rfl, rfl, rfl, .inr ⟨rfl, hh, rfl, rfl⟩⟩
  · exact ⟨rfl, rfl, fun _ => rfl, rfl, rfl, rfl, rfl, .inl ⟨rfl, rfl, rfl⟩⟩

theorem commandState_halted (i : Instr) {s : State} (h : s.halted = true) : commandState i s = s := by
  cases i with
  | kref tsel seed => exact withTable_halted _ tsel _ s h
  | kunref tsel seed => exact withTable_halted _ tsel _ s h
  | tblrd tsel index => exact withTable_halted _ tsel _ s h
  | _ => exact runBuffer_halted _ s h

/-- Settles O24. -/
theorem haltedEngineIgnoresCommands : Obligations.HaltedEngineIgnoresCommands := by
  constructor
  · intro i s h
    rw [exec_eq_next, commandState_halted i h]
  · intro w s h
    simp [issue, h]

theorem decode_of_decodeTableWord {nbits w : Nat} {i : Instr} (h : decodeTableWord nbits w = some i) :
    decode (tableWord nbits w) = .instr i := by
  unfold decodeTableWord at h
  split at h
  · rename_i hd
    rw [hd, Option.some.inj h]
  · cases h

/-- Settles O38. -/
theorem stepRunsTheDecodedCommand : Obligations.StepRunsTheDecodedCommand := by
  constructor
  · intro s w rest hp hh h
    have hstep : step s = issue w (s.withPending rest) :=
      (step_write (offset := 0x00) hp (by decide) (by decide) h).trans (writeReg_cmd w hh)
    exact ⟨fun i hd => hstep.trans (issue_of_instr w _ i hh hd), fun c hd => hstep.trans (issue_of_fault w _ c hh hd)⟩
  · intro s w i hp hh hd
    rw [step_withFetchWord s 32 w hp, writeReg_cmd _ hh, issue_of_instr _ s i hh (decode_of_decodeTableWord hd)]

/-! ### RESULT depends on the operands only (10_state R36) -/

/-- Two running engines that give a command the same operands: ADDR, LEN and the range with its bytes. -/
structure SameOperands (s s' : State) : Prop where
  running : s.halted = false
  running' : s'.halted = false
  addr : s'.addr = s.addr
  len : s'.len = s.len
  readable : ∀ j, j < s.len.toNat →
    s'.platform.readable (s.addr.toNat + j) = s.platform.readable (s.addr.toNat + j)
  bytes : ∀ j, j < s.len.toNat → s'.mem.read (s.addr.toNat + j) = s.mem.read (s.addr.toNat + j)

/-- Two end states of a command: both faulted, or both completed with the same RESULT. -/
def SameOutcome (t t' : State) : Prop :=
  t'.halted = t.halted ∧ (t.halted = false → t'.result = t.result ∧ t.status.valid = true ∧ t'.status.valid = true)

theorem sameOutcome_raise (c : Cause) (info info' : Word) (s s' : State) :
    SameOutcome (s.raise c info) (s'.raise c info') := ⟨rfl, nofun⟩

namespace SameOperands

variable {s s' : State} (h : SameOperands s s')
include h

theorem buffer_eq : s'.buffer = s.buffer := by
  simp only [State.buffer, Memory.bytes, h.addr, h.len]
  exact List.map_congr_left fun j hj => h.bytes j (List.mem_range.1 hj)

theorem rangeAdmitted_congr : s'.rangeAdmitted = true ↔ s.rangeAdmitted = true := by
  simp only [rangeAdmitted_iff, h.addr, h.len]
  exact and_congr_right fun _ => forall₂_congr fun j hj => by rw [h.readable j hj]

theorem bufferOk_eq : s'.bufferOk = s.bufferOk := by
  rw [Bool.eq_iff_iff, bufferOk_iff, bufferOk_iff, h.len, h.rangeAdmitted_congr]

theorem sameOutcome_complete (raw out : Half) : SameOutcome (s.complete raw out) (s'.complete raw out) :=
  ⟨h.running'.trans h.running.symm, fun _ => ⟨rfl, rfl, rfl⟩⟩

theorem sameOutcome_runBuffer (b : Binding) : SameOutcome (runBuffer b s) (runBuffer b s') := by
  cases hb : s.bufferOk with
  | false =>
    rw [runBuffer_fault b s h.running hb, runBuffer_fault b s' h.running' (h.bufferOk_eq.trans hb)]
    exact sameOutcome_raise ..
  | true =>
    rw [runBuffer_success b s h.running hb, runBuffer_success b s' h.running' (h.bufferOk_eq.trans hb), h.buffer_eq]
    exact h.sameOutcome_complete _ _

theorem sameOutcome_withTable (i : Instr) (tsel : BitVec 3) {f : Table → State → State}
    (hf : ∀ t, SameOutcome (f t s) (f t s')) : SameOutcome (withTable i tsel f s) (withTable i tsel f s') := by
  cases ht : tableOfTsel tsel with
  | none =>
    rw [withTable_badTsel i tsel f s h.running ht, withTable_badTsel i tsel f s' h.running' ht]
    exact sameOutcome_raise ..
  | some t =>
    rw [withTable_table i tsel f s t h.running ht, withTable_table i tsel f s' t h.running' ht]
    exact hf t

theorem sameOutcome_commandState (i : Instr) : SameOutcome (commandState i s) (commandState i s') := by
  cases i with
  | kref tsel seed => exact h.sameOutcome_withTable _ tsel fun _ => h.sameOutcome_runBuffer _
  | kunref tsel seed => exact h.sameOutcome_withTable _ tsel fun _ => h.sameOutcome_runBuffer _
  | tblrd tsel index => exact h.sameOutcome_withTable _ tsel fun _ => h.sameOutcome_complete _ _
  | _ => exact h.sameOutcome_runBuffer _

end SameOperands

/-- Settles O29. -/
theorem resultDependsOnOperandsOnly : Obligations.ResultDependsOnOperandsOnly := by
  intro i s s' hh hh' haddr hlen hreadable hbytes
  exact ⟨_, _, exec_eq_next i s, exec_eq_next i s',
    SameOperands.sameOutcome_commandState ⟨hh, hh', haddr, hlen, hreadable, hbytes⟩ i⟩

end Sys2Proof.Machine
end

section
/-! SUPPORT. Proofs of the statements about the buffer memory and the host's view of it (spec/20_memory.md): the range check of a
buffer command, the byte view of the window, the platforms the spec gives a meaning, and what a step does to memory and to
`Readable`. -/

namespace Sys2Proof.Machine

/-! ### The buffer and its range check (20_memory R53, R57, R58) -/

/-- Settles O28. -/
theorem bufferIsTheBytesFromAddrInOrder : Obligations.BufferIsTheBytesFromAddrInOrder := by
  intro s
  exact ⟨bytes_length s.mem _ _, bytes_getElem s.mem _ _⟩

/-- A well-formed buffer command executes one binding, the same in every state. -/
theorem exec_buffer {i : Instr} (hw : WellFormed i) (hbuf : i.opcode.isBuffer = true) :
    ∃ b : Binding, ∀ s, exec i s = .next (runBuffer b s) := by
  obtain ⟨b, hb⟩ := commandState_buffer i hbuf hw
  exact ⟨b, fun s => by rw [exec_eq_next, hb]⟩

theorem raise_ne_complete {s : State} (hh : s.halted = false) (c : Cause) (info : Word) (raw out : Half) :
    s.raise c info ≠ s.complete raw out := fun h => by
  have hmode := congrArg State.halted h
  simp [hh] at hmode

theorem runBuffer_eq_raise_iff (b : Binding) {s : State} (hh : s.halted = false) :
    runBuffer b s = s.raise .bounds s.addr ↔ s.bufferOk = false := by
  refine ⟨fun h => ?_, runBuffer_fault b s hh⟩
  by_contra hok
  rw [runBuffer_success b s hh (by simpa using hok)] at h
  exact raise_ne_complete hh _ _ _ _ h.symm

theorem runBuffer_eq_complete_iff (b : Binding) {s : State} (hh : s.halted = false) :
    (∃ raw out, runBuffer b s = s.complete raw out) ↔ s.bufferOk = true := by
  refine ⟨?_, fun hok => ⟨_, _, runBuffer_success b s hh hok⟩⟩
  rintro ⟨raw, out, h⟩
  by_contra hok
  rw [runBuffer_fault b s hh (by simpa using hok)] at h
  exact raise_ne_complete hh _ _ _ _ h

/-- Settles O26: the binding's run faults or completes, and which of the two it does is `State.bufferOk`. -/
theorem boundsFaultExactlyWhenNotAdmitted : Obligations.BoundsFaultExactlyWhenNotAdmitted := by
  intro i s hw hbuf hh hlen admitted
  obtain ⟨b, hb⟩ := exec_buffer hw hbuf
  have hadm : admitted ↔ s.bufferOk = true := (or_iff_right hlen).symm.trans (rangeOk_iff_bufferOk s)
  rw [hb s]
  simp only [Host.Outcome.next.injEq]
  refine ⟨?_, hadm.trans (runBuffer_eq_complete_iff b hh).symm, ?_⟩
  · rw [hadm, Bool.not_eq_true]
    exact (runBuffer_eq_raise_iff b hh).symm
  · rintro ⟨hend, -⟩ j hj
    omega

/-- With LEN = 0 nothing is checked and the kernel runs over no byte. -/
theorem runBuffer_empty (b : Binding) {s : State} (hh : s.halted = false) (hlen : s.len = 0#32) :
    runBuffer b s = s.complete (b.raw []) (b.raw [] ^^^ b.xorout) := by
  rw [runBuffer_success b s hh ((bufferOk_iff s).2 (.inl hlen)), buffer_empty s hlen]

/-- Settles O27: neither the range check nor the empty buffer depends on what the two states differ in. -/
theorem zeroLengthCommandAlwaysSucceeds : Obligations.ZeroLengthCommandAlwaysSucceeds := by
  intro i s a p m hw hbuf hh hlen
  obtain ⟨b, hb⟩ := exec_buffer hw hbuf
  refine ⟨⟨b.raw [], b.raw [] ^^^ b.xorout⟩, ?_, ?_⟩
  · rw [hb, runBuffer_empty b hh hlen]; rfl
  · rw [hb, runBuffer_empty b (s := { s with addr := a, platform := p, mem := m }) hh hlen]; rfl

/-! ### The byte view of the window (20_memory R55) -/

theorem windowByte_aligned (s : State) {offset k : Nat} (hal : offset % 4 = 0) (hk : k < 4) :
    s.windowByte (offset + k) = (s.readReg (regAt offset)).extractLsb' (8 * k) 8 := by
  have hreg : 4 * ((offset + k) / 4) = offset := by omega
  have hbyte : (offset + k) % 4 = k := by omega
  rw [State.windowByte, hreg, hbyte]

/-- Two neighbouring bytes of a register, the upper one on the left, are a half of it. -/
theorem windowByte_append (s : State) {offset k : Nat} (hal : offset % 4 = 0) (hk : k + 1 < 4) :
    s.windowByte (offset + (k + 1)) ++ s.windowByte (offset + k) =
      (s.readReg (regAt offset)).extractLsb' (8 * k) 16 := by
  rw [windowByte_aligned s hal hk, windowByte_aligned s hal (Nat.lt_of_succ_lt hk)]
  exact BitVec.extractLsb'_append_extractLsb'_eq_extractLsb' (by omega)

/-- Settles O43. -/
theorem windowBytesAreLittleEndian : Obligations.WindowBytesAreLittleEndian := by
  constructor
  · intro s offset k hal hk j hj
    simp [windowByte_aligned s hal hk, hj]
  · intro s
    constructor
    · exact (windowByte_append s (offset := 0x0C) (k := 0) rfl (by decide)).trans BitVec.extractLsb'_append_eq_right
    · exact (windowByte_append s (offset := 0x0C) (k := 2) rfl (by decide)).trans BitVec.extractLsb'_append_eq_left

/-! ### Admissible platforms (20_memory R59, 60_exceptions R168) -/

/-- Some `Readable` address lies in the register window or has read side effects. -/
def Platform.CoversForbidden (p : Platform) : Prop :=
  ∃ a, p.readable a = true ∧ ((p.crcBase ≤ a ∧ a < p.crcBase + 64) ∨ p.hasSideEffect a = true)

theorem objection_of_coversForbidden {p : Platform} (h : p.CoversForbidden) :
    p.objection = some .readableCoversWindow ∨ p.objection = some .readableHasSideEffects := by
  rcases objection_cases p with ⟨ho, -⟩ | ⟨ho, -⟩ | ⟨-, hclear⟩
  · exact .inl ho
  · exact .inr ho
  · obtain ⟨a, ha, hin | hside⟩ := h
    · exact absurd ((window_contains_iff p a).2 hin) (by simp [(hclear a ha).1])
    · exact absurd hside (by simp [(hclear a ha).2])

theorem coversForbidden_of_objection {p : Platform} {r : Refusal} (h : p.objection = some r) : p.CoversForbidden := by
  rcases objection_cases p with ⟨-, a, ha, hin⟩ | ⟨-, a, ha, hside⟩ | ⟨ho, -⟩
  · exact ⟨a, ha, .inl ((window_contains_iff p a).1 hin)⟩
  · exact ⟨a, ha, .inr hside⟩
  · rw [ho] at h; cases h

theorem objection_eq_none_iff (p : Platform) : p.objection = none ↔ ¬ p.CoversForbidden := by
  constructor
  · intro ho hc
    rcases objection_of_coversForbidden hc with h | h <;> (rw [ho] at h; cases h)
  · exact fun hc => Option.eq_none_iff_forall_ne_some.2 fun r hr => hc (coversForbidden_of_objection hr)

theorem step_of_objection {s : State} {r : Refusal} (h : s.platform.objection = some r) : step s = .refused r := by
  simp [step, h]

/-- Settles O45. -/
theorem platformIsRefusedExactlyForItsReadable : Obligations.PlatformIsRefusedExactlyForItsReadable := by
  intro s
  refine ⟨⟨?_, fun hc => ?_⟩, fun r hr => ?_⟩
  · rintro ⟨r, -, hr⟩
    exact coversForbidden_of_objection hr
  · rcases objection_of_coversForbidden hc with ho | ho
    · exact ⟨_, step_of_objection ho, ho⟩
    · exact ⟨_, step_of_objection ho, ho⟩
  · rcases objection_of_coversForbidden (coversForbidden_of_objection hr) with ho | ho
    · exact .inl (Option.some.inj (hr.symm.trans ho))
    · exact .inr (Option.some.inj (hr.symm.trans ho))

/-- Settles O55. -/
theorem readableChangesUnlessRefused : Obligations.ReadableChangesUnlessRefused := by
  intro s ranges rest hp hx p covered
  have hstep : step s = serveSetReadable ranges (s.withPending rest) := step_serve s _ rest hp hx
  constructor
  · intro hc
    exact hstep.trans (serveSetReadable_of_ok ranges _ ((objection_eq_none_iff p).2 hc))
  · intro hc
    rcases objection_of_coversForbidden (p := p) hc with ho | ho
    · exact .inl (hstep.trans (serveSetReadable_of_objection ranges _ _ ho))
    · exact .inr (hstep.trans (serveSetReadable_of_objection ranges _ _ ho))

theorem ServeEffect.keeps_platformOk {x : Input} {s t : State} (he : ServeEffect s x t) (hp : PlatformOk s) :
    PlatformOk t := by
  cases he with
  | setReadable ranges hok => exact hok
  | _ => exact hp

theorem step_keeps_platformOk {s t : State} (h : step s = .next t) : PlatformOk t := by
  have hp : PlatformOk s := (step_cases s t h).1
  rcases step_effect h with ⟨-, rfl⟩ | ⟨x, rest, -, he⟩
  · exact hp
  · exact he.keeps_platformOk hp

/-- What every step keeps, a run that ends in a next state keeps. -/
theorem run_induction {P : State → Prop} (hstep : ∀ s t, step s = .next t → P s → P t) {k : Nat} {s t : State}
    (h : Sys2Proof.core.run k s = .next t) (hs : P s) : P t := by
  induction k generalizing s with
  | zero => exact Host.Outcome.next.inj h ▸ hs
  | succ k ih =>
    obtain ⟨u, hu, hrun⟩ := run_succ_cases k s t h
    exact ih hrun (hstep s u hu hs)

/-- Settles O56. -/
theorem runsStayOnAdmissiblePlatforms : Obligations.RunsStayOnAdmissiblePlatforms := by
  refine ⟨fun s t h => ⟨(step_cases s t h).1, step_keeps_platformOk h⟩, ?_, fun s => ?_⟩
  · rintro s t ⟨hp, hrun⟩
    exact ⟨hp, run_induction (fun _ _ h _ => step_keeps_platformOk h) hrun hp⟩
  · simp [PlatformOk, objection_eq_none_iff, Platform.CoversForbidden]

/-! ### What a step does to memory (20_memory R50, R52, R60) -/

theorem ServeEffect.mem_cases {x : Input} {s t : State} (he : ServeEffect s x t) :
    t.mem = s.mem ∨ ∃ addr b, x = .store addr b ∧ t.mem = s.mem.write addr.toNat b := by
  cases he with
  | store addr b => exact .inr ⟨addr, b, rfl, rfl⟩
  | _ => exact .inl rfl

/-- Settles O48. -/
theorem onlyStoresChangeMemory : Obligations.OnlyStoresChangeMemory := by
  intro s t a hinv h hne
  rcases step_effect h with ⟨-, rfl⟩ | ⟨x, rest, hx, he⟩
  · exact absurd rfl hne
  · rcases he.mem_cases with hmem | ⟨addr, b, rfl, hmem⟩
    · exact absurd (congrArg (·.read a) hmem) hne
    · replace hmem : t.mem = s.mem.write addr.toNat b := hmem
      rw [hmem] at hne ⊢
      have ha : addr.toNat = a := by
        by_contra hother
        exact hne (read_write_other s.mem addr.toNat a b (Ne.symm hother))
      subst ha
      exact ⟨addr, b, rest, hx, rfl, read_write_same s.mem 0 addr.toNat b hinv.memory_canonical⟩

/-! ### A command between host accesses (20_memory R61, 70_reset R193, R197) -/

section namedAccess
variable {s : State} (r : Reg) (rest : List Input) (hp : PlatformOk s)
include hp

theorem step_wr (v : Word) :
    step (s.withPending (s.platform.wr r v :: rest)) = writeReg r v (s.withPending rest) :=
  (step_serve (s.withPending (_ :: rest)) _ rest hp rfl).trans (serve_wr s.platform r v _ rfl)

theorem step_rd : step (s.withPending (s.platform.rd r :: rest)) = .next ((s.reply (s.readReg r)).withPending rest) :=
  (step_serve (s.withPending (_ :: rest)) _ rest hp rfl).trans (serve_rd s.platform r _ rfl)

end namedAccess

/-- A CMD write neither reads nor writes what is still to be served. -/
theorem issue_withPending {w : Word} {s t : State} (hh : s.halted = false) (h : issue w s = .next t) (xs : List Input) :
    issue w (s.withPending xs) = .next (t.withPending xs) := by
  rcases issue_cases w s t h with ⟨hh', -⟩ | ⟨-, c, hd, rfl⟩ | ⟨-, i, hd, he⟩
  · simp [hh] at hh'
  · exact issue_of_fault w _ c hh hd
  · have ht : commandState i s = t := Host.Outcome.next.inj ((exec_eq_next i s).symm.trans he)
    rw [issue_of_instr w (s.withPending xs) i hh hd, exec_eq_next, commandState_withPending, ht]

section programOrder
variable {s t : State} {a n w : Word} {rest : List Input} (hp : PlatformOk s)
include hp

theorem step_command (hh : s.halted = false) (hissue : issue w s = .next t) :
    step (s.withPending (s.platform.wr .cmd w :: rest)) = .next (t.withPending rest) := by
  rw [step_wr .cmd rest hp w, writeReg_cmd (s := s.withPending rest) w hh, issue_withPending hh hissue]

/-- The writes of ADDR, LEN and CMD are served in three steps, and the command runs with the written values. -/
theorem run_stagedCommand (hh : s.halted = false) (hissue : issue w ((s.setAddr a).setLen n) = .next t) (k : Nat) :
    Sys2Proof.core.run (k + 3)
        (s.withPending (s.platform.wr .addr a :: s.platform.wr .len n :: s.platform.wr .cmd w :: rest)) =
      Sys2Proof.core.run k (t.withPending rest) := by
  calc
    _ = Sys2Proof.core.run (k + 2)
          ((s.setAddr a).withPending (s.platform.wr .len n :: s.platform.wr .cmd w :: rest)) :=
      run_succ_next _ _ _ ((step_wr .addr _ hp a).trans (writeReg_addr a hh))
    _ = Sys2Proof.core.run (k + 1) (((s.setAddr a).setLen n).withPending (s.platform.wr .cmd w :: rest)) :=
      run_succ_next _ _ _ ((step_wr (s := s.setAddr a) .len _ hp n).trans (writeReg_len n hh))
    _ = Sys2Proof.core.run k (t.withPending rest) :=
      run_succ_next _ _ _ (step_command (s := (s.setAddr a).setLen n) hp hh hissue)

/-- Two reads are served in two steps, and each returns its register as it was before both. -/
theorem run_twoReads (r r' : Reg) :
    Sys2Proof.core.run 2 (s.withPending (s.platform.rd r :: s.platform.rd r' :: rest)) =
      .next { s with pending := rest, replies := s.readReg r' :: s.readReg r :: s.replies } := by
  have hkept : (s.reply (s.readReg r)).readReg r' = s.readReg r' := by cases r' <;> rfl
  calc
    _ = Sys2Proof.core.run 1 ((s.reply (s.readReg r)).withPending (s.platform.rd r' :: rest)) :=
      run_succ_next _ _ _ (step_rd r _ hp)
    _ = .next (((s.reply (s.readReg r)).reply ((s.reply (s.readReg r)).readReg r')).withPending rest) :=
      run_succ_next _ _ _ (step_rd (s := s.reply (s.readReg r)) r' rest hp)
    _ = _ := by rw [hkept]; rfl

end programOrder

/-- Settles O46: the three writes, then the two reads in the state the command left. -/
theorem commandUsesStagedValuesAndIsSeenByReads : Obligations.CommandUsesStagedValuesAndIsSeenByReads := by
  intro s t a n w rest hp hh hpend hissue
  have hwrite : writeReg .cmd w ((s.setAddr a).setLen n) = .next t :=
    (writeReg_cmd (s := (s.setAddr a).setLen n) w hh).trans hissue
  obtain ⟨-, hplatform, -, hreplies⟩ := writeReg_frame .cmd w _ t hwrite
  have hpt : PlatformOk t := by rw [PlatformOk, hplatform]; exact hp
  have hs : s = s.withPending (s.platform.wr .addr a :: s.platform.wr .len n :: s.platform.wr .cmd w ::
      t.platform.rd .status :: t.platform.rd .result :: rest) := by
    rw [hplatform]
    exact congrArg (s.withPending ·) hpend
  calc
    _ = Sys2Proof.core.run 2 (t.withPending (t.platform.rd .status :: t.platform.rd .result :: rest)) :=
      (congrArg (Sys2Proof.core.run 5) hs).trans (run_stagedCommand hp hh hissue 2)
    _ = _ := run_twoReads hpt .status .result
    _ = _ := by rw [hreplies]; rfl

end Sys2Proof.Machine
end

section
/-! SUPPORT. Proofs of the statements about the command word (spec/30_encoding.md): a word is its fields side by side, so two words
are equal when their fields are, and a masked comparison is one comparison for each field. -/

namespace Sys2Proof

/-! ### A word and its fields (30_encoding R71, R72) -/

theorem append_fields (w : Word) : immField w ++ rsvField w ++ tselField w ++ opcField w = w := by
  simp only [immField, rsvField, tselField, opcField, BitVec.extractLsb'_append_extractLsb'_eq_extractLsb',
    BitVec.extractLsb'_eq_self]

theorem word_eq_iff_fields {w w' : Word} : w = w' ↔ opcField w = opcField w' ∧ rsvField w = rsvField w' ∧
    tselField w = tselField w' ∧ immField w = immField w' := by
  constructor
  · rintro rfl
    exact ⟨rfl, rfl, rfl, rfl⟩
  · rintro ⟨hopc, hrsv, htsel, himm⟩
    rw [← append_fields w, ← append_fields w', hopc, hrsv, htsel, himm]

/-- IMM16 is its reserved half and the table index, where the operation is TBLRD (R72). -/
theorem immField_eq_append (w : Word) : immField w = immHighField w ++ indexField w := by
  simp only [immField, immHighField, indexField, BitVec.extractLsb'_append_extractLsb'_eq_extractLsb']

section
variable (high index : Byte) (tsel : BitVec 3) (op : Opcode)

theorem immHalves_commandWord : immHighField (commandWord (high ++ index) tsel op) ++
    indexField (commandWord (high ++ index) tsel op) = high ++ index :=
  (immField_eq_append _).symm.trans (immField_commandWord (high ++ index) tsel op)

@[simp] theorem indexField_commandWord : indexField (commandWord (high ++ index) tsel op) = index := by
  simpa only [BitVec.extractLsb'_append_eq_right] using
    congrArg (BitVec.extractLsb' 0 8) (immHalves_commandWord high index tsel op)

@[simp] theorem immHighField_commandWord : immHighField (commandWord (high ++ index) tsel op) = high := by
  simpa only [BitVec.extractLsb'_append_eq_left] using
    congrArg (BitVec.extractLsb' 8 8) (immHalves_commandWord high index tsel op)

end

/-! ### The must-be-zero fields (30_encoding R77) -/

theorem reservedFieldNonzero_eq_false {op : Opcode} {w : Word} : reservedFieldNonzero op w = false ↔
    rsvField w = 0#5 ∧ (op.usesTsel = false → tselField w = 0#3) ∧ (op.immMustBeZero = true → immField w = 0#16) ∧
      (op = .tblrd → immHighField w = 0#8) := by
  simp [reservedFieldNonzero, and_assoc]

/-! ### Encoding and decoding (30_encoding R79) -/

section assembled
variable (i : Instr)

theorem opcField_encode : opcField (encode i) = i.opcode.code := by
  cases i <;> simp only [encode, Instr.opcode, opcField_commandWord]

theorem reservedFieldNonzero_encode : reservedFieldNonzero i.opcode (encode i) = false := by
  rw [reservedFieldNonzero_eq_false]
  cases i <;> simp [encode, Instr.opcode, Opcode.usesTsel, Opcode.immMustBeZero]

theorem buildInstr_encode : buildInstr i.opcode (encode i) = i := by
  cases i <;> simp only [encode, Instr.opcode, buildInstr, immField_commandWord, tselField_commandWord,
    indexField_commandWord]

/-- The assembled word of a well-formed command has a legal table select, if the operation uses one (R73). -/
theorem legalTsel_encode (hwf : WellFormed i) (huses : i.opcode.usesTsel = true) :
    legalTsel (tselField (encode i)) = true := by
  cases i with
  | kref | kunref | tblrd => rwa [encode, tselField_commandWord]
  | _ => cases huses

end assembled

/-- Settles O4: the assembled word passes the decoder's checks, and its fields are the operands. -/
theorem decodeOfEncodeIsTheCommand : Obligations.DecodeOfEncodeIsTheCommand := by
  intro i hwf
  exact (decode_eq_instr (encode i) i).2 ⟨i.opcode, opcField_encode i, reservedFieldNonzero_encode i,
    legalTsel_encode i hwf, (buildInstr_encode i).symm⟩

/-- The word of an operation whose must-be-zero fields are 0 is the assembled word of its command. -/
theorem encode_buildInstr {op : Opcode} {w : Word} (hopc : opcField w = op.code)
    (hres : reservedFieldNonzero op w = false) : encode (buildInstr op w) = w := by
  obtain ⟨hrsv, htsel, himm, hhigh⟩ := reservedFieldNonzero_eq_false.1 hres
  have hword := commandWord_of_fields w op hopc hrsv
  cases op with
  | ccitt | x25Ccitt => rwa [himm rfl, htsel rfl] at hword
  | ccittSeed | crc16p5935 | crc16p755B | crc16p9949Seed => rwa [htsel rfl] at hword
  | kref | kunref => exact hword
  | tblrd => rwa [immField_eq_append, hhigh rfl] at hword

/-- Settles O5: the fields that the decoder does not keep are 0 in the word. -/
theorem encodeOfDecodeIsTheWord : Obligations.EncodeOfDecodeIsTheWord := by
  intro w i h
  have hwf := Machine.decode_wellFormed w i h
  obtain ⟨op, hopc, hres, -, rfl⟩ := (decode_eq_instr w i).1 h
  exact ⟨encode_buildInstr hopc hres, hwf⟩

/-- Settles O3, by running the decoder on the nine words. -/
theorem specWordsDecodeToTheirCommands : Obligations.SpecWordsDecodeToTheirCommands := by
  unfold Obligations.SpecWordsDecodeToTheirCommands
  decide

/-! ### Match and mask (30_encoding R75) -/

section rows
variable (op : Opcode)

theorem opcField_maskBits : opcField op.maskBits = BitVec.allOnes 8 := by cases op <;> rfl

theorem rsvField_maskBits : rsvField op.maskBits = BitVec.allOnes 5 := by cases op <;> rfl

theorem tselField_maskBits : tselField op.maskBits = if op.usesTsel then 0#3 else BitVec.allOnes 3 := by cases op <;> rfl

theorem immField_maskBits : immField op.maskBits =
    if op.immMustBeZero then BitVec.allOnes 16 else if op = .tblrd then BitVec.allOnes 8 ++ 0#8 else 0#16 := by
  cases op <;> rfl

theorem matchBits_eq_commandWord : op.matchBits = commandWord 0#16 0#3 op := by cases op <;> rfl

end rows

section masked
variable (w m : Word)

theorem opcField_and : opcField (w &&& m) = opcField w &&& opcField m := BitVec.extractLsb'_and

theorem rsvField_and : rsvField (w &&& m) = rsvField w &&& rsvField m := BitVec.extractLsb'_and

theorem tselField_and : tselField (w &&& m) = tselField w &&& tselField m := BitVec.extractLsb'_and

theorem immField_and : immField (w &&& m) = immField w &&& immField m := BitVec.extractLsb'_and

end masked

theorem tselField_masked {op : Opcode} {w : Word} : tselField w &&& tselField op.maskBits = 0#3 ↔
    (op.usesTsel = false → tselField w = 0#3) := by
  rw [tselField_maskBits]
  cases op.usesTsel <;> simp [-BitVec.reduceAllOnes]

theorem immField_masked {op : Opcode} {w : Word} : immField w &&& immField op.maskBits = 0#16 ↔
    (op.immMustBeZero = true → immField w = 0#16) ∧ (op = .tblrd → immHighField w = 0#8) := by
  have hhigh : immField w &&& BitVec.allOnes 8 ++ 0#8 = 0#16 ↔ immHighField w = 0#8 := by
    rw [immField_eq_append, BitVec.and_append, BitVec.and_allOnes, BitVec.and_zero]
    exact BitVec.append_left_inj (s₂ := 0#8) 0#8
  rw [immField_maskBits]
  cases op with
  | ccitt | x25Ccitt => simp [Opcode.immMustBeZero, -BitVec.reduceAllOnes]
  | tblrd => simpa [Opcode.immMustBeZero] using hhigh
  | _ => simp [Opcode.immMustBeZero]

/-- A word meets an operation's match and mask exactly when it has its OPC and 0 in its must-be-zero fields. -/
theorem and_maskBits_eq_matchBits {op : Opcode} {w : Word} : w &&& op.maskBits = op.matchBits ↔
    opcField w = op.code ∧ reservedFieldNonzero op w = false := by
  rw [word_eq_iff_fields, matchBits_eq_commandWord, reservedFieldNonzero_eq_false]
  simp only [opcField_and, rsvField_and, tselField_and, immField_and, opcField_maskBits, rsvField_maskBits,
    BitVec.and_allOnes, opcField_commandWord, rsvField_commandWord, tselField_commandWord, immField_commandWord,
    tselField_masked, immField_masked]

theorem exists_decode_eq_instr_iff {op : Opcode} {w : Word} : (∃ i, decode w = .instr i ∧ i.opcode = op) ↔
    (w &&& op.maskBits = op.matchBits ∧ (op.usesTsel = true → (tselField w).toNat ≤ 4)) := by
  simp only [decode_eq_instr, and_maskBits_eq_matchBits, ← legalTsel_iff]
  constructor
  · rintro ⟨_, ⟨op', hopc, hres, hlegal, rfl⟩, hop⟩
    obtain rfl : op' = op := (opcode_buildInstr op' w).symm.trans hop
    exact ⟨⟨hopc, hres⟩, hlegal⟩
  · rintro ⟨⟨hopc, hres⟩, hlegal⟩
    exact ⟨_, ⟨op, hopc, hres, hlegal, rfl⟩, opcode_buildInstr op w⟩

/-- Settles O6: match and mask ask for the OPC and for 0 in the must-be-zero fields. -/
theorem matchAndMaskSelectTheOperation : Obligations.MatchAndMaskSelectTheOperation := by
  refine ⟨fun op w => exists_decode_eq_instr_iff, fun op w hopc hmask => ?_, ?_⟩
  · have hres : reservedFieldNonzero op w = true := by
      by_contra h
      exact hmask (and_maskBits_eq_matchBits.2 ⟨hopc, Bool.eq_false_of_not_eq_true h⟩)
    exact (decode_eq_fault w _).2 (.inr (.inl ⟨op, hopc, hres, rfl⟩))
  · decide

/-- Settles O7: a word has one OPC. -/
theorem noWordMatchesTwoOperations : Obligations.NoWordMatchesTwoOperations := by
  intro w op op' h h'
  obtain ⟨hopc, -⟩ := and_maskBits_eq_matchBits.1 h
  obtain ⟨hopc', -⟩ := and_maskBits_eq_matchBits.1 h'
  exact code_injective op op' (hopc.symm.trans hopc')

/-! ### The opcode map (30_encoding R74, R76) -/

/-- The nine OPC values of R74. -/
theorem mem_codes {opc : Byte} : opc ∈ [0x01#8, 0x02#8, 0x03#8, 0x04#8, 0x05#8, 0x06#8, 0x10#8, 0x11#8, 0x20#8] ↔
    ∃ op : Opcode, opc = op.code := by
  constructor
  · simp only [List.mem_cons, List.not_mem_nil, or_false]
    rintro (h | h | h | h | h | h | h | h | h)
    exacts [⟨.ccitt, h⟩, ⟨.ccittSeed, h⟩, ⟨.x25Ccitt, h⟩, ⟨.crc16p5935, h⟩, ⟨.crc16p755B, h⟩, ⟨.crc16p9949Seed, h⟩,
      ⟨.kref, h⟩, ⟨.kunref, h⟩, ⟨.tblrd, h⟩]
  · rintro ⟨op, rfl⟩
    cases op <;> decide

theorem opcodeOf_eq_none {opc : Byte} : opcodeOf opc = none ↔
    opc ∉ [0x01#8, 0x02#8, 0x03#8, 0x04#8, 0x05#8, 0x06#8, 0x10#8, 0x11#8, 0x20#8] := by
  rw [mem_codes, not_exists, Option.eq_none_iff_forall_ne_some]
  exact forall_congr' fun op => not_congr (opcodeOf_eq_some opc op)

theorem decode_eq_illegalOpcode {w : Word} : decode w = .fault .illegalOpcode ↔
    opcField w ∉ [0x01#8, 0x02#8, 0x03#8, 0x04#8, 0x05#8, 0x06#8, 0x10#8, 0x11#8, 0x20#8] := by
  rw [← opcodeOf_eq_none, decode_eq_fault]
  simp

end Sys2Proof

namespace Sys2Proof.Machine

/-- 247 OPC values name no operation (R76): the map is evaluated on each of the 256, by the kernel because the elaborator's
recursion limit stops short of a list of that length. -/
theorem illegalCodes_length :
    ((List.range 256).filter (fun n => (opcodeOf (BitVec.ofNat 8 n)).isNone)).length = 247 := by
  decide +kernel

/-- Settles O8: an OPC that is none of the nine codes names no operation, which is the decoder's first check. -/
theorem undefinedOpcodesFaultIllegal : Obligations.UndefinedOpcodesFaultIllegal :=
  ⟨fun _ => decode_eq_illegalOpcode,
    fun w s hrun hopc => issue_of_fault w s .illegalOpcode hrun (decode_eq_illegalOpcode.2 hopc),
    illegalCodes_length, by decide⟩

/-! ### The table select (30_encoding R73) -/

theorem tableOfTsel_eq_none {tsel : BitVec 3} : tableOfTsel tsel = none ↔ 5 ≤ tsel.toNat := by
  rw [← Option.not_isSome_iff_eq_none, tableOfTsel_isSome, legalTsel_iff]
  omega

/-- A select of 5, 6 or 7 in a word that uses it, with no reserved bit set, faults BAD_TSEL. -/
theorem decode_eq_badTsel {op : Opcode} {w : Word} (hopc : opcField w = op.code) (huses : op.usesTsel = true)
    (hrsv : rsvField w = 0#5) (hhigh : op = .tblrd → immHighField w = 0#8) (htsel : 5 ≤ (tselField w).toNat) :
    decode w = .fault .badTsel := by
  have himm : op.immMustBeZero = false := by
    cases op with
    | kref | kunref | tblrd => rfl
    | _ => cases huses
  have hres : reservedFieldNonzero op w = false :=
    reservedFieldNonzero_eq_false.2 ⟨hrsv, by simp [huses], by simp [himm], hhigh⟩
  have hlegal : legalTsel (tselField w) = false := by rw [← tableOfTsel_isSome, tableOfTsel_eq_none.2 htsel]; rfl
  exact (decode_eq_fault w _).2 (.inr (.inr ⟨op, hopc, hres, huses, hlegal, rfl⟩))

/-- The OPC values of the operations that use TSEL. -/
theorem exists_usesTsel_of_mem {opc : Byte} (h : opc ∈ [0x10#8, 0x11#8, 0x20#8]) :
    ∃ op : Opcode, opc = op.code ∧ op.usesTsel = true := by
  simp only [List.mem_cons, List.not_mem_nil, or_false] at h
  rcases h with h | h | h
  exacts [⟨.kref, h, rfl⟩, ⟨.kunref, h, rfl⟩, ⟨.tblrd, h, rfl⟩]

/-- Settles O9: a select from 5 on names no table, and the decoder stops the word that uses it. -/
theorem tableSelectNamesTheTables : Obligations.TableSelectNamesTheTables := by
  refine ⟨rfl, rfl, rfl, rfl, rfl, ⟨rfl, rfl⟩, ⟨rfl, rfl⟩, ⟨rfl, rfl⟩, ⟨rfl, rfl⟩, ⟨rfl, rfl⟩,
    fun _ => tableOfTsel_eq_none.2, ?_⟩
  intro w s hrun hmem hrsv hhigh htsel
  obtain ⟨op, hopc, huses⟩ := exists_usesTsel_of_mem hmem
  have hzero : op = .tblrd → immHighField w = 0#8 := by rintro rfl; exact hhigh hopc
  exact issue_of_fault w s .badTsel hrun (decode_eq_badTsel hopc huses hrsv hzero htsel)

end Sys2Proof.Machine
end

section
/-! SUPPORT. Proofs of the statements about the table ROMs (spec/40_tables.md): the listings against the construction, what every
table has, and the table read. -/

namespace Sys2Proof.Machine

/-! ### The listings and the construction (40_tables R101 to R103) -/

/-- A listing is data: its 256 entries are compared one by one, by the kernel because of their number. -/
theorem tableEntry_reflected {t : Table} (h : isReflected t = true) :
    ∀ i : Byte, tableEntry t i = constructR (polynomial t) i := by
  cases t with
  | ccittReverse | p9949Reverse => decide +kernel
  | ccittForward | p5935 | p755B => cases h

theorem tableEntry_unreflected {t : Table} (h : isReflected t = false) :
    ∀ i : Byte, tableEntry t i = constructU (polynomial t) i := by
  cases t with
  | ccittReverse | p9949Reverse => cases h
  | ccittForward | p5935 | p755B => decide +kernel

/-- Settles O32, table by table. -/
theorem romsEqualTheConstruction : Obligations.RomsEqualTheConstruction :=
  ⟨tableEntry_reflected rfl, tableEntry_unreflected rfl, tableEntry_unreflected rfl, tableEntry_unreflected rfl,
    tableEntry_reflected rfl, by decide, by decide⟩

/-! ### What every table has (40_tables R105) -/

theorem constructR_xor (p : Half) (a b : Byte) : constructR p (a ^^^ b) = constructR p a ^^^ constructR p b := by
  simp only [constructR, BitVec.setWidth_xor, repeatStep_xor _ (bitStepR_xor _)]

theorem constructU_xor (p : Half) (a b : Byte) : constructU p (a ^^^ b) = constructU p a ^^^ constructU p b := by
  simp only [constructU, BitVec.setWidth_xor, BitVec.shiftLeft_xor_distrib, repeatStep_xor _ (bitStepU_xor _)]

theorem tableEntry_xor (t : Table) (a b : Byte) : tableEntry t (a ^^^ b) = tableEntry t a ^^^ tableEntry t b := by
  cases h : isReflected t with
  | true => simp only [tableEntry_reflected h, constructR_xor]
  | false => simp only [tableEntry_unreflected h, constructU_xor]

theorem constructR_highBit (p : Half) : constructR p 0x80#8 = rev16 p := by
  simp [constructR, repeatStep, bitStepR]

theorem constructU_one (p : Half) : constructU p 0x01#8 = p := by
  simp [constructU, repeatStep, bitStepU]

theorem tableEntry_zero (t : Table) : tableEntry t 0x00#8 = 0x0000#16 := by cases t <;> rfl

/-- Only entry 0 of an unreflected table has a low byte of 0. -/
theorem eq_zero_of_lowByte_unreflected {t : Table} (h : isReflected t = false) :
    ∀ i : Byte, (tableEntry t i).extractLsb' 0 8 = 0#8 → i = 0#8 := by
  cases t with
  | ccittReverse | p9949Reverse => cases h
  | ccittForward | p5935 | p755B => decide +kernel

/-- Only entry 0 of a reflected table has a high byte of 0. -/
theorem eq_zero_of_highByte_reflected {t : Table} (h : isReflected t = true) :
    ∀ i : Byte, (tableEntry t i).extractLsb' 8 8 = 0#8 → i = 0#8 := by
  cases t with
  | ccittReverse | p9949Reverse => decide +kernel
  | ccittForward | p5935 | p755B => cases h

/-- A byte of the entries takes each value once if only entry 0 has it 0: two entries that agree in it differ, by linearity, by an
entry that has it 0. -/
theorem bijective_entryByte {t : Table} {start : Nat}
    (hker : ∀ i : Byte, (tableEntry t i).extractLsb' start 8 = 0#8 → i = 0#8) :
    Function.Bijective (fun i : Byte => (tableEntry t i).extractLsb' start 8) := by
  refine Finite.injective_iff_bijective.1 fun a b hab => BitVec.xor_eq_zero_iff.1 (hker (a ^^^ b) ?_)
  rw [tableEntry_xor, BitVec.extractLsb'_xor]
  exact BitVec.xor_eq_zero_iff.2 hab

theorem bijective_lowByte {t : Table} (h : isReflected t = false) :
    Function.Bijective (fun i : Byte => (tableEntry t i).extractLsb' 0 8) :=
  bijective_entryByte (eq_zero_of_lowByte_unreflected h)

theorem bijective_highByte {t : Table} (h : isReflected t = true) :
    Function.Bijective (fun i : Byte => (tableEntry t i).extractLsb' 8 8) :=
  bijective_entryByte (eq_zero_of_highByte_reflected h)

theorem tableEntry_injective (t : Table) : Function.Injective (tableEntry t) := by
  intro a b hab
  cases h : isReflected t with
  | true => exact (bijective_highByte h).injective (congrArg (BitVec.extractLsb' 8 8) hab)
  | false => exact (bijective_lowByte h).injective (congrArg (BitVec.extractLsb' 0 8) hab)

/-- Settles O33: linearity and the polynomial are the construction's, and with linearity each bijection needs only that no
entry but the first has the byte 0. -/
theorem tablesAreLinearAndInjective : Obligations.TablesAreLinearAndInjective :=
  ⟨tableEntry_zero, tableEntry_xor,
    fun _ h => (tableEntry_unreflected h _).trans (constructU_one _),
    fun _ h => (tableEntry_reflected h _).trans (constructR_highBit _),
    fun t _ _ hab => tableEntry_injective t hab, fun _ => bijective_lowByte, fun _ => bijective_highByte⟩

/-! ### The table read (40_tables R104) -/

/-- The assembled word is its fields shifted to their places (30_encoding R71). -/
theorem commandWord_eq_or (imm : Half) (tsel : BitVec 3) (op : Opcode) : commandWord imm tsel op =
    (imm.setWidth 32 <<< 16) ||| (tsel.setWidth 32 <<< 8) ||| op.code.setWidth 32 := by
  simpa [commandWord] using BitVec.setWidth_append_append_append_eq_shiftLeft_setWidth_or (w'''' := 32)
    (b := imm) (b' := 0#5) (b'' := tsel) (b''' := op.code)

theorem encode_tblrd (tsel : BitVec 3) (index : Byte) : encode (.tblrd tsel index) =
    (index.setWidth 32 <<< 16) ||| (tsel.setWidth 32 <<< 8) ||| 0x20#32 := by
  have himm : 0#8 ++ index = index.setWidth 16 := (BitVec.setWidth_eq_append (by decide)).symm
  simp [encode, commandWord_eq_or, himm, Opcode.code]

/-- A running table read completes with the entry in both halves of RESULT. -/
theorem exec_tblrd (t : Table) (index : Byte) {s : State} (h : s.halted = false) :
    exec (.tblrd (tselOfTable t) index) s = .next (s.complete (tableEntry t index) (tableEntry t index)) := by
  rw [exec_eq_next, commandState, withTable_table _ _ _ s t h (tableOfTsel_tselOfTable t)]

theorem reservedFieldNonzero_tblrd {w : Word} :
    reservedFieldNonzero .tblrd w = true ↔ rsvField w ≠ 0#5 ∨ immHighField w ≠ 0#8 := by
  simp [reservedFieldNonzero, Opcode.usesTsel, Opcode.immMustBeZero]

/-- Settles O22: the command completes with the entry, and the decoder stops a word with a reserved bit set or a bad select. -/
theorem tblrdCommand : Obligations.TblrdCommand := by
  refine ⟨fun tsel index => ⟨encode_tblrd tsel index, fun htsel => ?_⟩, fun t index s hrun => exec_tblrd t index hrun,
    fun w s hrun hopc hres => ?_, fun w s hrun hopc hrsv hhigh htsel => ?_,
    fun tsel index s hhalt => haltedEngineIgnoresCommands.1 _ s hhalt, tableEntry_zero, by decide, rfl⟩
  · rw [← encode_tblrd]
    exact decodeOfEncodeIsTheCommand _ ((legalTsel_iff tsel).2 htsel)
  · have hdec : decode w = .fault .reservedField :=
      (decode_eq_fault w _).2 (.inr (.inl ⟨.tblrd, hopc, reservedFieldNonzero_tblrd.2 hres, rfl⟩))
    exact issue_of_fault w s _ hrun hdec
  · have hdec : decode w = .fault .badTsel := decode_eq_badTsel (op := .tblrd) hopc rfl hrsv (fun _ => hhigh) htsel
    exact issue_of_fault w s _ hrun hdec

end Sys2Proof.Machine
end

section
/-! SUPPORT. Proofs of the statements about the kernels (spec/41_kernels.md): the step functions as formulas, with deferred
truncation and bit by bit; KREF and KUNREF; and a buffer split in two. -/

namespace Sys2Proof.Machine

/-! ### The step functions on natural numbers (41_kernels R120, R121, R124) -/

/-- The index of a step, masked as the formulas write it. -/
theorem ofNat_maskedIndex (x : Nat) (b : Byte) :
    BitVec.ofNat 8 ((x ^^^ b.toNat) &&& 0xFF) = BitVec.ofNat 8 x ^^^ b := by
  apply BitVec.eq_of_toNat_eq
  rw [Nat.and_two_pow_sub_one_eq_mod _ 8]
  simp [Nat.xor_mod_two_pow (n := 8), b.isLt]

/-- Settles O34: in both steps the index is taken modulo 2^8 and the shift modulo 2^16. -/
theorem stepFunctionsFollowTheFormulas : Obligations.StepFunctionsFollowTheFormulas := by
  intro t c b
  rw [stepR_eq, stepU_eq, ofNat_maskedIndex, ofNat_maskedIndex]
  constructor
  · rw [BitVec.toNat_xor, BitVec.toNat_ushiftRight]
    rfl
  · rw [BitVec.toNat_xor, BitVec.toNat_shiftLeft, Nat.and_two_pow_sub_one_eq_mod _ 16]
    rfl

theorem extractLsb'_high_ofNat (x : Nat) : (BitVec.ofNat 16 x).extractLsb' 8 8 = BitVec.ofNat 8 (x >>> 8) := by
  apply BitVec.eq_of_toNat_eq
  simp only [BitVec.extractLsb'_toNat, BitVec.toNat_ofNat, Nat.shiftRight_eq_div_pow]
  omega

/-- Truncating after an unbounded step is a truncated step: the step needs no bit above 15. -/
theorem ofNat_wideStepU (t : Table) (x : Nat) (b : Byte) :
    BitVec.ofNat 16 (wideStepU t x b) = stepU t (BitVec.ofNat 16 x) b := by
  rw [stepU_eq, extractLsb'_high_ofNat, wideStepU, ofNat_maskedIndex, BitVec.ofNat_xor, BitVec.ofNat_toNat, BitVec.setWidth_eq]
  congr 1
  apply BitVec.eq_of_toNat_eq
  simp [Nat.shiftLeft_eq, Nat.mul_mod]

/-- Settles O35: truncation maps each unbounded step to a truncated one, and so the whole fold. -/
theorem deferredTruncationGivesTheSameKernel : Obligations.DeferredTruncationGivesTheSameKernel := by
  intro t s bytes
  have hfold := List.foldl_hom (l := bytes) (init := s.toNat) (BitVec.ofNat 16) fun x b => (ofNat_wideStepU t x b).symm
  rw [deferredKernelU, kernelU, ← hfold, BitVec.ofNat_toNat, BitVec.setWidth_eq]

/-! ### The bit-serial steps (41_kernels R130) -/

/-- While only 0 bits are shifted out, the polynomial is not XORed in. -/
theorem repeatStep_bitStepR_of_low (q : Half) {n : Nat} {c : Half} (h : ∀ i < n, c.getLsbD i = false) :
    repeatStep (bitStepR q) n c = c >>> n := by
  induction n generalizing c with
  | zero => simp [repeatStep]
  | succ n ih =>
    have hstep : bitStepR q c = c >>> 1 := if_neg (by simp only [h 0 n.succ_pos, Bool.false_eq_true, not_false_eq_true])
    rw [repeatStep, hstep, ih fun i hi => by simpa using h (1 + i) (by omega), ← BitVec.shiftRight_add, Nat.add_comm]

theorem repeatStep_bitStepU_of_high (p : Half) {n : Nat} {c : Half} (h : ∀ i < n, c.getMsbD i = false) :
    repeatStep (bitStepU p) n c = c <<< n := by
  induction n generalizing c with
  | zero => simp [repeatStep]
  | succ n ih =>
    have hstep : bitStepU p c = c <<< 1 := if_neg (by simpa [BitVec.getMsbD] using h 0 n.succ_pos)
    rw [repeatStep, hstep, ih fun i hi => by simpa using h (i + 1) (by omega), ← BitVec.shiftLeft_add, Nat.add_comm]

/-- The high byte comes down unchanged behind a low byte of 0. -/
theorem repeatStep_bitStepR_highByte (q c : Half) : repeatStep (bitStepR q) 8 (c >>> 8 <<< 8) = c >>> 8 := by
  rw [repeatStep_bitStepR_of_low q fun i hi => by simp [hi]]
  apply BitVec.eq_of_getLsbD_eq
  intro i hi
  simp only [BitVec.getLsbD_ushiftRight, BitVec.getLsbD_shiftLeft]
  grind

/-- The low byte goes up unchanged behind a high byte of 0. -/
theorem repeatStep_bitStepU_lowByte (p c : Half) : repeatStep (bitStepU p) 8 (c <<< 8 >>> 8) = c <<< 8 := by
  rw [repeatStep_bitStepU_of_high p fun i hi => by simp [hi]]
  apply BitVec.eq_of_getLsbD_eq
  intro i hi
  simp only [BitVec.getLsbD_ushiftRight, BitVec.getLsbD_shiftLeft]
  grind

/-- A byte XORed into the low byte of the state leaves the high byte as it is. -/
theorem xor_lowByte (c : Half) (b : Byte) :
    c ^^^ b.setWidth 16 = (c.extractLsb' 0 8 ^^^ b).setWidth 16 ^^^ c >>> 8 <<< 8 := by
  apply BitVec.eq_of_getLsbD_eq
  intro i hi
  simp only [BitVec.getLsbD_xor, BitVec.getLsbD_setWidth, BitVec.getLsbD_extractLsb', BitVec.getLsbD_shiftLeft,
    BitVec.getLsbD_ushiftRight]
  grind

/-- A byte XORed into the high byte of the state leaves the low byte as it is. -/
theorem xor_highByte (c : Half) (b : Byte) :
    c ^^^ b.setWidth 16 <<< 8 = (c.extractLsb' 8 8 ^^^ b).setWidth 16 <<< 8 ^^^ c <<< 8 >>> 8 := by
  apply BitVec.eq_of_getLsbD_eq
  intro i hi
  simp only [BitVec.getLsbD_xor, BitVec.getLsbD_setWidth, BitVec.getLsbD_extractLsb', BitVec.getLsbD_shiftLeft,
    BitVec.getLsbD_ushiftRight]
  grind

theorem stepR_eq_bitSerialR {t : Table} (h : isReflected t = true) (c : Half) (b : Byte) :
    stepR t c b = bitSerialR (polynomial t) c b := by
  rw [stepR_eq, tableEntry_reflected h, constructR, bitSerialR, xor_lowByte, repeatStep_xor _ (bitStepR_xor _),
    repeatStep_bitStepR_highByte]

theorem stepU_eq_bitSerialU {t : Table} (h : isReflected t = false) (c : Half) (b : Byte) :
    stepU t c b = bitSerialU (polynomial t) c b := by
  rw [stepU_eq, tableEntry_unreflected h, constructU, bitSerialU, xor_highByte, repeatStep_xor _ (bitStepU_xor _),
    repeatStep_bitStepU_lowByte]

/-- Settles O36: the byte that the table entry stands for and the byte that is only shifted go through the 8 single-bit steps
apart, by linearity. -/
theorem tableDrivenKernelsEqualBitSerial : Obligations.TableDrivenKernelsEqualBitSerial :=
  ⟨fun _ c b h => stepR_eq_bitSerialR h c b, fun _ c b h => stepU_eq_bitSerialU h c b,
    fun t s bytes h => by rw [kernelR, funext₂ (stepR_eq_bitSerialR h)],
    fun t s bytes h => by rw [kernelU, funext₂ (stepU_eq_bitSerialU h)]⟩

/-! ### A command with a seed (41_kernels R127) -/

/-- The binding with the command's own seed as its initial value. -/
def Binding.seeded (b : Binding) (seed : Half) : Binding := { b with init := seed }

/-- The command runs the binding from its seed, in every state; the binding's own initial value plays no part. -/
def RunsSeeded (cmd : Half → Instr) (b : Binding) : Prop :=
  ∀ (seed : Half) (s : State), exec (cmd seed) s = .next (runBuffer (b.seeded seed) s)

/-- With a select that names a table, `withTable` adds nothing to a buffer command, which is ignored while halted anyway. -/
theorem withTable_runBuffer (i : Instr) (t : Table) (b : Table → Binding) (s : State) :
    withTable i (tselOfTable t) (fun t => runBuffer (b t)) s = runBuffer (b t) s := by
  cases h : s.halted with
  | false => exact withTable_table _ _ _ s t h (tableOfTsel_tselOfTable t)
  | true => rw [withTable_halted _ _ _ s h, runBuffer_halted _ s h]

theorem runsSeeded_kref (t : Table) : RunsSeeded (.kref (tselOfTable t)) ⟨.reflected, t, 0x0000#16, 0x0000#16⟩ := by
  intro seed s
  rw [exec_eq_next, commandState, withTable_runBuffer, Binding.seeded]

theorem runsSeeded_kunref (t : Table) : RunsSeeded (.kunref (tselOfTable t)) ⟨.unreflected, t, 0x0000#16, 0x0000#16⟩ := by
  intro seed s
  rw [exec_eq_next, commandState, withTable_runBuffer, Binding.seeded]

/-- The empty buffer leaves the seed (R126). -/
theorem Binding.raw_seeded_nil (b : Binding) (seed : Half) : (b.seeded seed).raw [] = seed := by
  obtain ⟨kernel, _⟩ := b
  cases kernel <;> rfl

/-- A run over two parts goes on from where the first ended (R125). -/
theorem Binding.raw_append (b : Binding) (xs ys : List Byte) : b.raw (xs ++ ys) = (b.seeded (b.raw xs)).raw ys := by
  obtain ⟨kernel, _⟩ := b
  cases kernel <;> exact List.foldl_append

namespace RunsSeeded

variable {cmd : Half → Instr} {b : Binding} (hcmd : RunsSeeded cmd b) (seed : Half) {s : State} (hrun : s.halted = false)
include hcmd hrun

theorem exec_success (hok : RangeOk s) : exec (cmd seed) s = .next
    (s.complete ((b.seeded seed).raw s.buffer) ((b.seeded seed).raw s.buffer ^^^ b.xorout)) := by
  rw [hcmd, runBuffer_success _ s hrun ((rangeOk_iff s).1 hok)]
  rfl

theorem exec_success_unmasked (hx : b.xorout = 0x0000#16) (hok : RangeOk s) : exec (cmd seed) s = .next
    (s.complete ((b.seeded seed).raw s.buffer) ((b.seeded seed).raw s.buffer)) := by
  rw [hcmd.exec_success seed hrun hok, hx, BitVec.xor_zero]

theorem exec_outOfRange (hbad : ¬ RangeOk s) : exec (cmd seed) s = .next (s.raise .bounds s.addr) := by
  rw [rangeOk_iff, Bool.not_eq_true] at hbad
  rw [hcmd, runBuffer_fault _ s hrun hbad]

theorem exec_empty_unmasked (hx : b.xorout = 0x0000#16) (hlen : s.len = 0#32) :
    exec (cmd seed) s = .next (s.complete seed seed) := by
  rw [hcmd.exec_success_unmasked seed hrun hx (.inl hlen), buffer_empty s hlen, Binding.raw_seeded_nil]

end RunsSeeded

/-! ### KREF and KUNREF (41_kernels R128, R129) -/

theorem toNat_le_four_iff_tselOfTable (tsel : BitVec 3) : tsel.toNat ≤ 4 ↔ ∃ t, tsel = tselOfTable t := by
  rw [← legalTsel_iff, ← tableOfTsel_isSome, Option.isSome_iff_exists]
  simp only [tableOfTsel_eq_some]

theorem encode_kref (tsel : BitVec 3) (seed : Half) : encode (.kref tsel seed) =
    (seed.setWidth 32 <<< 16) ||| (tsel.setWidth 32 <<< 8) ||| 0x10#32 := commandWord_eq_or seed tsel .kref

theorem encode_kunref (tsel : BitVec 3) (seed : Half) : encode (.kunref tsel seed) =
    (seed.setWidth 32 <<< 16) ||| (tsel.setWidth 32 <<< 8) ||| 0x11#32 := commandWord_eq_or seed tsel .kunref

/-- RSV must be 0 in every command (30_encoding R77), and is checked before the select. -/
theorem issue_rsvNonzero (op : Opcode) {w : Word} {s : State} (hrun : s.halted = false) (hopc : opcField w = op.code)
    (hrsv : rsvField w ≠ 0#5) : issue w s = .next (s.raise .reservedField w) := by
  have hres : reservedFieldNonzero op w = true := by simp [reservedFieldNonzero, hrsv]
  exact issue_of_fault w s _ hrun ((decode_eq_fault w _).2 (.inr (.inl ⟨op, hopc, hres, rfl⟩)))

/-- Settles O20: the select is checked by the decoder, and with a table the command runs the reflected kernel without a mask. -/
theorem krefCommand : Obligations.KrefCommand :=
  ⟨fun tsel seed => ⟨encode_kref tsel seed, fun htsel =>
      encode_kref tsel seed ▸ decodeOfEncodeIsTheCommand (.kref tsel seed) ((legalTsel_iff tsel).2 htsel)⟩,
    fun t seed _ hrun hok => (runsSeeded_kref t).exec_success_unmasked seed hrun rfl hok,
    toNat_le_four_iff_tselOfTable,
    fun _ _ hrun hopc hrsv => issue_rsvNonzero .kref hrun hopc hrsv,
    fun w s hrun hopc hrsv htsel =>
      issue_of_fault w s _ hrun (decode_eq_badTsel (op := .kref) hopc rfl hrsv nofun htsel),
    fun t seed _ hrun hbad => (runsSeeded_kref t).exec_outOfRange seed hrun hbad,
    fun t seed _ hrun hlen => (runsSeeded_kref t).exec_empty_unmasked seed hrun rfl hlen,
    by decide, by decide⟩

theorem kernelU_zero_singleton (t : Table) (b : Byte) : kernelU t 0x0000#16 [b] = tableEntry t b := by
  simp [stepU_eq]

/-- Settles O21: as KREF, with the unreflected kernel. -/
theorem kunrefCommand : Obligations.KunrefCommand :=
  ⟨fun tsel seed => ⟨encode_kunref tsel seed, fun htsel =>
      encode_kunref tsel seed ▸ decodeOfEncodeIsTheCommand (.kunref tsel seed) ((legalTsel_iff tsel).2 htsel)⟩,
    fun t seed _ hrun hok => (runsSeeded_kunref t).exec_success_unmasked seed hrun rfl hok,
    toNat_le_four_iff_tselOfTable,
    fun _ _ hrun hopc hrsv => issue_rsvNonzero .kunref hrun hopc hrsv,
    fun w s hrun hopc hrsv htsel =>
      issue_of_fault w s _ hrun (decode_eq_badTsel (op := .kunref) hopc rfl hrsv nofun htsel),
    fun t seed _ hrun hbad => (runsSeeded_kunref t).exec_outOfRange seed hrun hbad,
    fun t seed _ hrun hlen => (runsSeeded_kunref t).exec_empty_unmasked seed hrun rfl hlen,
    by decide, kernelU_zero_singleton, by decide⟩

/-! ### A buffer split in two (41_kernels R125) -/

/-- The seeded commands of 42_variants R149 and the two kernel commands. -/
theorem exists_runsSeeded {cmd : Half → Instr} (h : cmd = Instr.ccittSeed ∨ cmd = Instr.crc16p5935 ∨
    cmd = Instr.crc16p755B ∨ cmd = Instr.crc16p9949Seed ∨
      ∃ t, cmd = Instr.kref (tselOfTable t) ∨ cmd = Instr.kunref (tselOfTable t)) : ∃ b, RunsSeeded cmd b := by
  rcases h with rfl | rfl | rfl | rfl | ⟨t, rfl | rfl⟩
  · exact ⟨⟨.reflected, .ccittReverse, 0x0000#16, Config.ccittSeedXorout⟩, fun _ _ => rfl⟩
  · exact ⟨⟨.unreflected, .p5935, 0x0000#16, 0x0000#16⟩, fun _ _ => rfl⟩
  · exact ⟨⟨.unreflected, .p755B, 0x0000#16, 0x0000#16⟩, fun _ _ => rfl⟩
  · exact ⟨⟨.reflected, .p9949Reverse, 0x0000#16, 0x0000#16⟩, fun _ _ => rfl⟩
  · exact ⟨_, runsSeeded_kref t⟩
  · exact ⟨_, runsSeeded_kunref t⟩

/-- ADDR itself is in the buffer space, so LEN = 0 needs no case of its own. -/
theorem rangeOk_iff_admits (s : State) : RangeOk s ↔ s.platform.admits s.addr.toNat s.len.toNat = true := by
  rw [rangeOk_iff, bufferOk_iff, or_iff_right_of_imp]
  · rfl
  · intro hlen
    rw [rangeAdmitted_iff, hlen]
    exact ⟨s.addr.isLt.le, nofun⟩

theorem admits_add {p : Platform} {a n k : Nat} (h : p.admits a (n + k) = true) :
    p.admits a n = true ∧ p.admits (a + n) k = true := by
  simp only [admits_iff] at h ⊢
  obtain ⟨hend, hread⟩ := h
  refine ⟨⟨by omega, fun i hi => hread i (by omega)⟩, by omega, fun i hi => ?_⟩
  rw [Nat.add_assoc]
  exact hread (n + i) (by omega)

section split
variable {s : State} {n₁ n₂ n : Word} (hn : n.toNat = n₁.toNat + n₂.toNat) (hok : RangeOk (s.setLen n))
include hn hok

theorem admits_parts : s.platform.admits s.addr.toNat n₁.toNat = true ∧
    s.platform.admits (s.addr.toNat + n₁.toNat) n₂.toNat = true :=
  admits_add (hn ▸ (rangeOk_iff_admits _).1 hok)

/-- A second part that is not empty begins inside the buffer space. -/
theorem toNat_secondAddr (h₂ : n₂.toNat ≠ 0) : (s.addr + n₁).toNat = s.addr.toNat + n₁.toNat := by
  obtain ⟨hend, -⟩ := (admits_iff _ _ _).1 (admits_parts hn hok).2
  exact BitVec.toNat_add_of_lt (by simp only [Config.bufferSpace] at hend; omega)

theorem rangeOk_firstPart : RangeOk (s.setLen n₁) :=
  (rangeOk_iff_admits _).2 (admits_parts hn hok).1

theorem rangeOk_secondPart : RangeOk ((s.setAddr (s.addr + n₁)).setLen n₂) := by
  by_cases h₂ : n₂.toNat = 0
  · exact .inl (BitVec.eq_of_toNat_eq h₂)
  · rw [rangeOk_iff_admits, State.setLen_addr, State.setAddr_addr, toNat_secondAddr hn hok h₂]
    exact (admits_parts hn hok).2

theorem buffer_split :
    (s.setLen n).buffer = (s.setLen n₁).buffer ++ ((s.setAddr (s.addr + n₁)).setLen n₂).buffer := by
  simp only [State.buffer, State.setLen_mem, State.setLen_addr, State.setLen_len, State.setAddr_mem, State.setAddr_addr, hn,
    bytes_append]
  by_cases h₂ : n₂.toNat = 0
  · rw [h₂, bytes_zero, bytes_zero]
  · rw [toNat_secondAddr hn hok h₂]

end split

/-- Settles O31: each part is in range, and the kernel's run over the whole buffer goes through the first part's RAW. -/
theorem splitBufferChainsThroughRaw : Obligations.SplitBufferChainsThroughRaw := by
  intro cmd seed s n₁ n₂ n hcmd hrun hn hok
  obtain ⟨b, hb⟩ := exists_runsSeeded hcmd
  have hraw := (congrArg (b.seeded seed).raw (buffer_split hn hok)).trans (Binding.raw_append _ _ _)
  have hwhole := hb.exec_success seed (s := s.setLen n) hrun hok
  refine ⟨_, _, _, hb.exec_success seed (s := s.setLen n₁) hrun (rangeOk_firstPart hn hok),
    hb.exec_success _ hrun (rangeOk_secondPart hn hok), hwhole, hrun,
    congrArg (fun raw => Result.mk raw (raw ^^^ b.xorout)) hraw.symm, ?_⟩
  rintro rfl rfl
  exact hwhole

end Sys2Proof.Machine
end

section
/-! SUPPORT. Proofs of the statements about the six named variants (spec/42_variants.md). A seeded variant is its binding run from
the seed behind a word that is seed and OPC (`SeededVariant`); CCITT is CCITT_SEED from 0xFFFF, and X25_CCITT is KUNREF of its table
from 0xFFFF. -/

namespace Sys2Proof.Machine

/-! ### The command words of the variants (30_encoding R75, R77) -/

/-- A well-formed command has one word. -/
theorem decode_eq_instr_iff_encode {i : Instr} (hwf : WellFormed i) (w : Word) : decode w = .instr i ↔ w = encode i := by
  constructor
  · intro h
    exact (encodeOfDecodeIsTheWord w i h).1.symm
  · rintro rfl
    exact decodeOfEncodeIsTheCommand i hwf

theorem commandWord_noTsel (seed : Half) (op : Opcode) :
    commandWord seed 0#3 op = (seed.setWidth 32 <<< 16) ||| op.code.setWidth 32 := by
  simp [commandWord_eq_or]

/-- Bits 15:8 are RSV and TSEL. -/
theorem rsvField_append_tselField (w : Word) : rsvField w ++ tselField w = w.extractLsb' 8 8 := by
  simp only [rsvField, tselField, BitVec.extractLsb'_append_extractLsb'_eq_extractLsb']

/-- Bits 31:8 are IMM16, RSV and TSEL. -/
theorem immField_append_rsvField_append_tselField (w : Word) :
    immField w ++ (rsvField w ++ tselField w) = w.extractLsb' 8 24 := by
  simp only [rsvField_append_tselField, immField, BitVec.extractLsb'_append_extractLsb'_eq_extractLsb']

/-- Without a table select, bits 15:8 must be 0. -/
theorem reservedFieldNonzero_of_bits15to8 {op : Opcode} {w : Word} (huses : op.usesTsel = false)
    (h : w.extractLsb' 8 8 ≠ 0#8) : reservedFieldNonzero op w = true := by
  by_contra hres
  obtain ⟨hrsv, htsel, -, -⟩ := reservedFieldNonzero_eq_false.1 (Bool.eq_false_of_not_eq_true hres)
  rw [← rsvField_append_tselField, hrsv, htsel huses] at h
  exact h rfl

/-- With neither a table select nor a seed, bits 31:8 must be 0. -/
theorem reservedFieldNonzero_of_bits31to8 {op : Opcode} {w : Word} (huses : op.usesTsel = false)
    (himm : op.immMustBeZero = true) (h : w.extractLsb' 8 24 ≠ 0#24) : reservedFieldNonzero op w = true := by
  by_contra hres
  obtain ⟨hrsv, htsel, hzero, -⟩ := reservedFieldNonzero_eq_false.1 (Bool.eq_false_of_not_eq_true hres)
  rw [← immField_append_rsvField_append_tselField, hrsv, htsel huses, hzero himm] at h
  exact h rfl

/-- The word of an operation with a must-be-zero field that is not 0 faults RESERVED_FIELD. -/
theorem issue_reservedField {op : Opcode} {w : Word} {s : State} (hrun : s.halted = false) (hopc : opcField w = op.code)
    (hres : reservedFieldNonzero op w = true) : issue w s = .next (s.raise .reservedField w) :=
  issue_of_fault w s _ hrun ((decode_eq_fault w _).2 (.inr (.inl ⟨op, hopc, hres, rfl⟩)))

/-! ### The seeded variants -/

theorem RunsSeeded.exec_empty {cmd : Half → Instr} {b : Binding} (hcmd : RunsSeeded cmd b) (seed : Half) {s : State}
    (hrun : s.halted = false) (hlen : s.len = 0#32) :
    exec (cmd seed) s = .next (s.complete seed (seed ^^^ b.xorout)) := by
  rw [hcmd.exec_success seed hrun (.inl hlen), buffer_empty s hlen, Binding.raw_seeded_nil]

/-- Commands that run the same binding from the seed are equal. -/
theorem RunsSeeded.exec_eq {cmd cmd' : Half → Instr} {b : Binding} (hcmd : RunsSeeded cmd b) (hcmd' : RunsSeeded cmd' b)
    (seed : Half) (s : State) : exec (cmd seed) s = exec (cmd' seed) s :=
  (hcmd seed s).trans (hcmd' seed s).symm

/-- A named variant with a seed: the binding it runs, its operation, and its word, which holds seed and OPC. -/
structure SeededVariant (cmd : Half → Instr) (op : Opcode) (b : Binding) : Prop where
  runs : RunsSeeded cmd b
  word : ∀ seed, encode (cmd seed) = commandWord seed 0#3 op
  wellFormed : ∀ seed, WellFormed (cmd seed)
  noTsel : op.usesTsel = false

namespace SeededVariant

/-- CCITT_SEED (R142). -/
theorem ccittSeed : SeededVariant .ccittSeed .ccittSeed ⟨.reflected, .ccittReverse, 0x0000#16, Config.ccittSeedXorout⟩ :=
  ⟨fun _ _ => rfl, fun _ => rfl, fun _ => rfl, rfl⟩

/-- CRC16_5935 (R144). -/
theorem crc16p5935 : SeededVariant .crc16p5935 .crc16p5935 ⟨.unreflected, .p5935, 0x0000#16, 0x0000#16⟩ :=
  ⟨fun _ _ => rfl, fun _ => rfl, fun _ => rfl, rfl⟩

/-- CRC16_755B (R145). -/
theorem crc16p755B : SeededVariant .crc16p755B .crc16p755B ⟨.unreflected, .p755B, 0x0000#16, 0x0000#16⟩ :=
  ⟨fun _ _ => rfl, fun _ => rfl, fun _ => rfl, rfl⟩

/-- CRC16_9949_SEED (R146). -/
theorem crc16p9949Seed :
    SeededVariant .crc16p9949Seed .crc16p9949Seed ⟨.reflected, .p9949Reverse, 0x0000#16, 0x0000#16⟩ :=
  ⟨fun _ _ => rfl, fun _ => rfl, fun _ => rfl, rfl⟩

variable {cmd : Half → Instr} {op : Opcode} {b : Binding} (h : SeededVariant cmd op b)
include h

theorem encode_and_decode (seed : Half) :
    encode (cmd seed) = (seed.setWidth 32 <<< 16) ||| op.code.setWidth 32 ∧
      decode ((seed.setWidth 32 <<< 16) ||| op.code.setWidth 32) = .instr (cmd seed) := by
  have hword := (h.word seed).trans (commandWord_noTsel seed op)
  exact ⟨hword, (decode_eq_instr_iff_encode (h.wellFormed seed) _).2 hword.symm⟩

theorem issue_reserved (w : Word) (s : State) (hrun : s.halted = false) (hopc : opcField w = op.code)
    (hres : w.extractLsb' 8 8 ≠ 0#8) : issue w s = .next (s.raise .reservedField w) :=
  issue_reservedField hrun hopc (reservedFieldNonzero_of_bits15to8 h.noTsel hres)

end SeededVariant

/-- Settles O15: the binding of CCITT_SEED from every seed, behind a word of seed and OPC. -/
theorem ccittSeedCommand : Obligations.CcittSeedCommand :=
  have h := SeededVariant.ccittSeed
  ⟨h.encode_and_decode, fun seed _ hrun hok => h.runs.exec_success seed hrun hok, h.issue_reserved,
    fun seed _ hrun hbad => h.runs.exec_outOfRange seed hrun hbad,
    fun seed _ hrun hlen => h.runs.exec_empty seed hrun hlen,
    by decide, fun _ => rfl, by decide, by decide, by decide, by decide⟩

/-- Settles O17: the unreflected kernel of table 0x5935, with no mask. -/
theorem crc16p5935Command : Obligations.Crc16p5935Command :=
  have h := SeededVariant.crc16p5935
  ⟨h.encode_and_decode, fun seed _ hrun hok => h.runs.exec_success_unmasked seed hrun rfl hok, h.issue_reserved,
    fun seed _ hrun hbad => h.runs.exec_outOfRange seed hrun hbad,
    fun seed _ hrun hlen => h.runs.exec_empty_unmasked seed hrun rfl hlen,
    by decide, by decide, by decide, by decide⟩

/-- Settles O18: the unreflected kernel of table 0x755B, with no mask. -/
theorem crc16p755BCommand : Obligations.Crc16p755BCommand :=
  have h := SeededVariant.crc16p755B
  ⟨h.encode_and_decode, fun seed _ hrun hok => h.runs.exec_success_unmasked seed hrun rfl hok, h.issue_reserved,
    fun seed _ hrun hbad => h.runs.exec_outOfRange seed hrun hbad,
    fun seed _ hrun hlen => h.runs.exec_empty_unmasked seed hrun rfl hlen,
    by decide, by decide, by decide⟩

/-- Settles O19: the reflected kernel of table 0x9949-reverse, with no mask. -/
theorem crc16p9949SeedCommand : Obligations.Crc16p9949SeedCommand :=
  have h := SeededVariant.crc16p9949Seed
  ⟨h.encode_and_decode, fun seed _ hrun hok => h.runs.exec_success_unmasked seed hrun rfl hok, h.issue_reserved,
    fun seed _ hrun hbad => h.runs.exec_outOfRange seed hrun hbad,
    fun seed _ hrun hlen => h.runs.exec_empty_unmasked seed hrun rfl hlen,
    by decide, by decide, by decide, by decide⟩

/-! ### The variants without a seed -/

theorem exec_ccitt (s : State) : exec .ccitt s = exec (.ccittSeed 0xFFFF#16) s := rfl

theorem exec_x25Ccitt (s : State) : exec .x25Ccitt s = exec (.kunref (tselOfTable .ccittForward) 0xFFFF#16) s :=
  (runsSeeded_kunref .ccittForward 0xFFFF#16 s).symm

/-- Settles O14: CCITT is CCITT_SEED from 0xFFFF, and its word has no bit free beyond OPC. -/
theorem ccittCommand : Obligations.CcittCommand := by
  have h := SeededVariant.ccittSeed.runs
  refine ⟨decode_eq_instr_iff_encode (i := .ccitt) rfl, fun s hrun hok => ?_, fun w s hrun hopc hres => ?_,
    fun s hrun hbad => ?_, fun s hrun hlen => ?_, by decide, by decide, by decide⟩
  · exact (exec_ccitt s).trans (h.exec_success _ hrun hok)
  · exact issue_reservedField (op := .ccitt) hrun hopc (reservedFieldNonzero_of_bits31to8 rfl rfl hres)
  · exact (exec_ccitt s).trans (h.exec_outOfRange _ hrun hbad)
  · exact (exec_ccitt s).trans (h.exec_empty _ hrun hlen)

/-- A byte equal to the high byte of the state takes entry 0: the low byte goes up. -/
theorem stepU_highByte (t : Table) (c : Half) : stepU t c (c.extractLsb' 8 8) = c <<< 8 := by
  simp [stepU_eq, tableEntry_zero]

theorem highByte_shiftLeft (c : Half) : (c <<< 8).extractLsb' 8 8 = c.extractLsb' 0 8 := by
  apply BitVec.eq_of_getLsbD_eq
  intro i hi
  simp only [BitVec.getLsbD_extractLsb', BitVec.getLsbD_shiftLeft]
  grind

/-- The state's own two bytes, high byte first, shift it out. -/
theorem kernelU_ownBytes (t : Table) (c : Half) :
    kernelU t c [c.extractLsb' 8 8, c.extractLsb' 0 8] = 0x0000#16 := by
  rw [kernelU_cons, stepU_highByte, ← highByte_shiftLeft, kernelU_cons, stepU_highByte, kernelU_nil, ← BitVec.shiftLeft_add]
  exact BitVec.shiftLeft_eq_zero le_rfl

/-- Settles O16: X25_CCITT is KUNREF of its table from 0xFFFF, and the appended result meets only entry 0 of the table. -/
theorem x25CcittCommand : Obligations.X25CcittCommand := by
  have h := runsSeeded_kunref .ccittForward
  refine ⟨decode_eq_instr_iff_encode (i := .x25Ccitt) rfl, fun s hrun hok => ?_, fun w s hrun hopc hres => ?_,
    fun s hrun hbad => ?_, fun s hrun hlen => ?_, by decide, fun message => ?_, by decide⟩
  · exact (exec_x25Ccitt s).trans (h.exec_success_unmasked _ hrun rfl hok)
  · exact issue_reservedField (op := .x25Ccitt) hrun hopc (reservedFieldNonzero_of_bits31to8 rfl rfl hres)
  · exact (exec_x25Ccitt s).trans (h.exec_outOfRange _ hrun hbad)
  · exact (exec_x25Ccitt s).trans (h.exec_empty_unmasked _ hrun rfl hlen)
  · exact List.foldl_append.trans (kernelU_ownBytes _ _)

/-! ### The variants and the kernel commands (R148) -/

/-- The output mask plays no part in RAW. -/
theorem raw_runBuffer_mask (k : Kernel) (t : Table) (init mask mask' : Half) (s : State) :
    (runBuffer ⟨k, t, init, mask⟩ s).result.raw = (runBuffer ⟨k, t, init, mask'⟩ s).result.raw := by
  rcases runBuffer_cases ⟨k, t, init, mask⟩ s with ⟨hhalt, e⟩ | ⟨hrun, hbad, e⟩ | ⟨hrun, hok, e⟩
  · rw [e, runBuffer_halted _ s hhalt]
  · rw [e, runBuffer_fault _ s hrun hbad]
  · rw [e, runBuffer_success _ s hrun hok]
    rfl

/-- Settles O30: each pair runs one binding, CCITT_SEED and KREF with the table of CCITT up to the mask. -/
theorem variantsEqualTheirKernelCommands : Obligations.VariantsEqualTheirKernelCommands := by
  have h5935 := SeededVariant.crc16p5935.runs
  have h755B := SeededVariant.crc16p755B.runs
  have h9949 := SeededVariant.crc16p9949Seed.runs
  have hccittSeed := SeededVariant.ccittSeed.runs
  have hkref := runsSeeded_kref .ccittReverse
  have hkunref := runsSeeded_kunref .ccittForward
  refine ⟨exec_ccitt, exec_x25Ccitt, h5935.exec_eq (runsSeeded_kunref .p5935), h755B.exec_eq (runsSeeded_kunref .p755B),
    h9949.exec_eq (runsSeeded_kref .p9949Reverse), fun seed s => ?_, fun seed s hrun hlen => ⟨fun i hi => ?_, ?_, ?_, ?_⟩⟩
  · exact ⟨_, _, hccittSeed seed s, hkref seed s, raw_runBuffer_mask _ _ seed _ _ s⟩
  · simp only [List.mem_cons, List.not_mem_nil, or_false] at hi
    rcases hi with rfl | rfl | rfl | rfl | rfl
    · exact h5935.exec_empty_unmasked seed hrun rfl hlen
    · exact h755B.exec_empty_unmasked seed hrun rfl hlen
    · exact h9949.exec_empty_unmasked seed hrun rfl hlen
    · exact hkref.exec_empty_unmasked seed hrun rfl hlen
    · exact hkunref.exec_empty_unmasked seed hrun rfl hlen
  · exact hccittSeed.exec_empty seed hrun hlen
  · exact (exec_ccitt s).trans (hccittSeed.exec_empty _ hrun hlen)
  · exact (exec_x25Ccitt s).trans (hkunref.exec_empty_unmasked _ hrun rfl hlen)

end Sys2Proof.Machine
end

section
/-! SUPPORT. Proofs of the statements about faults (spec/60_exceptions.md): what a fault writes, which one a command word raises,
and how long its record stays. The word's bits are read as an operation and its fields once, and each fault is then a case of
that operation. -/

namespace Sys2Proof

/-! ### The spec's lists of OPC values as properties of the operation (30_encoding R71, R74, R77) -/

section codes
variable (op : Opcode)

theorem code_mem_noTsel : op.code ∈ [0x01#8, 0x02#8, 0x03#8, 0x04#8, 0x05#8, 0x06#8] ↔ op.usesTsel = false := by
  cases op <;> decide

theorem code_mem_usesTsel : op.code ∈ [0x10#8, 0x11#8, 0x20#8] ↔ op.usesTsel = true := by
  cases op <;> decide

theorem code_mem_immMustBeZero : op.code ∈ [0x01#8, 0x03#8] ↔ op.immMustBeZero = true := by
  cases op <;> decide

theorem code_eq_tblrd : op.code = 0x20#8 ↔ op = .tblrd :=
  ⟨code_injective op .tblrd, congrArg Opcode.code⟩

theorem isBuffer_iff_ne_tblrd : op.isBuffer = true ↔ op ≠ .tblrd := by
  cases op <;> decide

end codes

theorem reservedFieldNonzero_eq_true {op : Opcode} {w : Word} : reservedFieldNonzero op w = true ↔
    rsvField w ≠ 0#5 ∨ (op.usesTsel = false ∧ tselField w ≠ 0#3) ∨ (op.immMustBeZero = true ∧ immField w ≠ 0#16) ∨
      (op = .tblrd ∧ immHighField w ≠ 0#8) := by
  simp [reservedFieldNonzero, or_assoc]

theorem legalTsel_eq_false {tsel : BitVec 3} : legalTsel tsel = false ↔ 4 < tsel.toNat := by
  rw [← Bool.not_eq_true, legalTsel_iff, not_le]

end Sys2Proof

namespace Sys2Proof.Machine

/-! ### What a fault writes (60_exceptions R160, R161) -/

/-- BOUNDS is no fault of the decoder. -/
theorem causeCode_mem_of_decode_fault {w : Word} {c : Cause} (h : decode w = .fault c) : causeCode c ∈ [1#4, 2#4, 3#4] := by
  rcases (decode_eq_fault w c).1 h with ⟨-, rfl⟩ | ⟨_, -, -, rfl⟩ | ⟨_, -, -, -, -, rfl⟩ <;> decide

/-- Settles O10: of all that a CMD write can do in the running mode, only the two kinds of fault halt the engine. -/
theorem faultEntryWritesThreeFields : Obligations.FaultEntryWritesThreeFields := by
  intro w s t hrun h hhalt
  rcases issue_effects w s t h with ⟨hhalt', -⟩ | ⟨-, c, hdec, rfl⟩ | ⟨-, -, rfl⟩ | ⟨-, raw, out, rfl⟩
  · exact absurd (hhalt'.symm.trans hrun) nofun
  · exact ⟨_, _, rfl, .inl ⟨causeCode_mem_of_decode_fault hdec, rfl⟩⟩
  · exact ⟨_, _, rfl, .inr ⟨rfl, rfl⟩⟩
  · exact absurd (hhalt.symm.trans hrun) nofun

/-! ### The first fault that applies (60_exceptions R163) -/

section priority
variable {op : Opcode} {w : Word} {s : State} (hrun : s.halted = false) (hopc : opcField w = op.code)
include hrun hopc

theorem issue_badTsel (hres : reservedFieldNonzero op w = false) (huses : op.usesTsel = true)
    (hlegal : legalTsel (tselField w) = false) : issue w s = .next (s.raise .badTsel w) :=
  issue_of_fault w s _ hrun ((decode_eq_fault w _).2 (.inr (.inr ⟨op, hopc, hres, huses, hlegal, rfl⟩)))

variable (hres : reservedFieldNonzero op w = false) (hlegal : op.usesTsel = true → legalTsel (tselField w) = true)
include hres hlegal

/-- A word that passes the decoder's checks runs its command, which is well-formed. -/
theorem issue_runs_buildInstr : WellFormed (buildInstr op w) ∧ issue w s = exec (buildInstr op w) s := by
  have hdec : decode w = .instr (buildInstr op w) := (decode_eq_instr w _).2 ⟨op, hopc, hres, hlegal, rfl⟩
  exact ⟨decode_wellFormed w _ hdec, issue_of_instr w s _ hrun hdec⟩

theorem issue_bounds (hbuf : op.isBuffer = true) (hbad : ¬ RangeOk s) : issue w s = .next (s.raise .bounds s.addr) := by
  obtain ⟨hwf, hissue⟩ := issue_runs_buildInstr hrun hopc hres hlegal
  obtain ⟨b, hb⟩ := exec_buffer hwf (by rwa [opcode_buildInstr])
  rw [rangeOk_iff, Bool.not_eq_true] at hbad
  rw [hissue, hb, runBuffer_fault b s hrun hbad]

theorem issue_completes (hok : op.isBuffer = true → RangeOk s) : ∃ raw out, issue w s = .next (s.complete raw out) := by
  obtain ⟨hwf, hissue⟩ := issue_runs_buildInstr hrun hopc hres hlegal
  have hexec := exec_eq_next (buildInstr op w) s
  rw [hissue, hexec]
  rcases exec_cases _ s _ hexec with ⟨hhalt, -⟩ | ⟨-, hill, -⟩ | ⟨-, hbad, hbuf, -⟩ | ⟨-, raw, out, e⟩
  · exact absurd (hhalt.symm.trans hrun) nofun
  · exact absurd hwf hill
  · rw [opcode_buildInstr] at hbuf
    exact absurd (hbad.symm.trans ((rangeOk_iff s).1 (hok hbuf))) nofun
  · exact ⟨raw, out, congrArg _ e⟩

end priority

/-- Settles O11: the conditions on the bits are the checks of the decoder and of the range, in the order they are made. -/
theorem firstApplicableFaultIsReported : Obligations.FirstApplicableFaultIsReported := by
  intro w s hrun opc defined reserved badTsel outOfRange fault
  by_cases hd : defined
  case neg =>
    have hillegal : issue w s = .next (fault 1#4 w) := issue_of_fault w s _ hrun (decode_eq_illegalOpcode.2 hd)
    exact ⟨fun _ => hillegal, fun h => absurd h hd, fun h => absurd h hd, fun h => absurd h hd, fun h => absurd h hd⟩
  case pos =>
    obtain ⟨op, hopc⟩ : ∃ op : Opcode, opcField w = op.code := mem_codes.1 hd
    have hreserved : reserved ↔ reservedFieldNonzero op w = true := by
      rw [reservedFieldNonzero_eq_true, ← code_mem_noTsel, ← code_mem_immMustBeZero, ← code_eq_tblrd, ← hopc]
      rfl
    have hbadTsel : badTsel ↔ op.usesTsel = true ∧ legalTsel (tselField w) = false := by
      rw [legalTsel_eq_false, ← code_mem_usesTsel, ← hopc]
      rfl
    have houtOfRange : outOfRange ↔ op.isBuffer = true ∧ ¬ RangeOk s := by
      rw [isBuffer_iff_ne_tblrd, ne_eq, ← code_eq_tblrd, ← hopc]
      rfl
    have hclean : ¬ reserved → reservedFieldNonzero op w = false := by simp [hreserved]
    have hlegal : ¬ badTsel → op.usesTsel = true → legalTsel (tselField w) = true := by simp [hbadTsel]
    have hok : ¬ outOfRange → op.isBuffer = true → RangeOk s := by simp [houtOfRange]
    refine ⟨fun h => absurd hd h, fun _ hr => ?_, fun _ hr hb => ?_, fun _ hr hb ho => ?_, fun _ hr hb ho => ?_⟩
    · exact issue_reservedField hrun hopc (hreserved.1 hr)
    · obtain ⟨huses, hillegal⟩ := hbadTsel.1 hb
      exact issue_badTsel hrun hopc (hclean hr) huses hillegal
    · obtain ⟨hbuf, hbad⟩ := houtOfRange.1 ho
      exact issue_bounds hrun hopc (hclean hr) (hlegal hb) hbuf hbad
    · exact issue_completes hrun hopc (hclean hr) (hlegal hb) (hok ho)

/-! ### The record of the first fault (60_exceptions R162, R164) -/

theorem ServeEffect.pending_eq {x : Input} {s t : State} (he : ServeEffect s x t) : t.pending = s.pending := by
  cases he <;> rfl

/-- A step takes the oldest input off, if there is one. -/
theorem step_pending {s t : State} (h : step s = .next t) : t.pending = s.pending.tail := by
  rcases step_effect h with ⟨hnil, rfl⟩ | ⟨x, rest, hx, he⟩
  · rw [hnil, List.tail_nil]
  · rw [he.pending_eq, hx, List.tail_cons, State.withPending_pending]

/-- The engine is halted with the registers of `s`, and no reset is on its way. -/
structure KeepsRecordOf (s u : State) : Prop where
  noReset : Input.reset ∉ u.pending
  registers : u.halted = true ∧ u.status = s.status ∧ u.finfo = s.finfo ∧ u.result = s.result ∧ u.addr = s.addr ∧
    u.len = s.len

theorem KeepsRecordOf.of_step {s u v : State} (hu : KeepsRecordOf s u) (h : step u = .next v) : KeepsRecordOf s v := by
  obtain ⟨hno, hhalt, hstatus, hfinfo, hresult, haddr, hlen⟩ := hu
  rcases onlyResetChangesAHaltedEngine u v hhalt h with
    ⟨rest, hreset, -⟩ | ⟨hhalt', hstatus', hfinfo', hresult', haddr', hlen'⟩
  · exact absurd (hreset ▸ List.mem_cons_self) hno
  · exact ⟨fun hmem => hno (List.mem_of_mem_tail (step_pending h ▸ hmem)), hhalt', hstatus'.trans hstatus,
      hfinfo'.trans hfinfo, hresult'.trans hresult, haddr'.trans haddr, hlen'.trans hlen⟩

/-- Settles O13: each step keeps the registers and brings no reset, and so does a run. -/
theorem firstFaultRecordIsKeptUntilReset : Obligations.FirstFaultRecordIsKeptUntilReset := by
  intro k s t hhalt hno hrun
  have hstart : KeepsRecordOf s s := ⟨hno, hhalt, rfl, rfl, rfl, rfl, rfl⟩
  exact (run_induction (fun _ _ h hu => hu.of_step h) hrun hstart).registers

end Sys2Proof.Machine
end

section
/-! SUPPORT. Proofs of the statements about reset, byte stores and the end of a run (spec/70_reset_and_hazards.md): an input that
has a meaning is always served, and serving it takes no meaning from the inputs after it. -/

namespace Sys2Proof.Machine

/-! ### Reset (70_reset R190) -/

/-- Settles O2. -/
theorem resetEventRestoresEveryRegister : Obligations.ResetEventRestoresEveryRegister := by
  intro s rest hp hx
  exact ⟨(s.withPending rest).applyReset, step_serve s .reset rest hp hx, rfl, State.applyReset_halted _, rfl⟩

/-! ### A byte store (70_reset R193, R198; 10_state R35) -/

section store
variable {s : State} (a : Word) (b : Byte)

theorem serveStore_outside (h : s.platform.window.contains a.toNat = false) :
    serveStore a b s = .next (s.storeByte a b) := by simp [serveStore, h]

theorem serveStore_inWindow (h : s.platform.window.contains a.toNat = true) :
    serveStore a b s = .refused .badWindowAccess := by simp [serveStore, h]

end store

/-- Settles O49: outside the window the new memory is `Memory.write`'s, and its laws say what it reads as. -/
theorem storeWritesOneByte : Obligations.StoreWritesOneByte := by
  intro s addr b rest hp hinv hx inWindow
  have hstep : step s = serveStore addr b (s.withPending rest) := step_serve s _ rest hp hx
  have hwindow : s.platform.window.contains addr.toNat = true ↔ inWindow := window_contains_iff s.platform addr.toNat
  constructor
  · intro hout
    have hstore := serveStore_outside (s := s.withPending rest) addr b (Bool.eq_false_iff.2 (hout ∘ hwindow.1))
    exact ⟨s.mem.write addr.toNat b, hstep.trans hstore, read_write_same s.mem 0 addr.toNat b hinv.memory_canonical,
      fun a hne => read_write_other s.mem addr.toNat a b hne, write_keeps_wf s.mem addr b hinv.memory_canonical⟩
  · intro hin
    exact hstep.trans (serveStore_inWindow (s := s.withPending rest) addr b (hwindow.2 hin))

/-! ### A run of meaningful inputs (70_reset R200) -/

/-- What has a meaning depends on where the window is and on the side effects, not on the present `Readable`. -/
theorem inputOk_readableRanges (p : Platform) (ranges : List Range) (y : Input) :
    InputOk { p with readableRanges := ranges } y ↔ InputOk p y := by
  cases y <;> rfl

theorem ServeEffect.inputOk_iff {x : Input} {s t : State} (he : ServeEffect s x t) (y : Input) :
    InputOk t.platform y ↔ InputOk s.platform y := by
  cases he with
  | setReadable ranges _ => exact inputOk_readableRanges s.platform ranges y
  | _ => rfl

/-- An input that has a meaning is neither refused nor a stop, whatever the engine holds. -/
theorem serve_answers_next {x : Input} {s : State} (hok : InputOk s.platform x) : ∃ t, serve x s = .next t := by
  cases x with
  | read addr bytes =>
    obtain ⟨offset, hlt, hal, rfl, rfl⟩ := hok
    exact ⟨s.reply (s.readReg (regAt offset)), by simp only [serve, target_register _ _ hlt hal, serveRead]⟩
  | write addr bytes v =>
    obtain ⟨offset, hlt, hal, rfl, rfl⟩ := hok
    simpa only [serve, target_register _ _ hlt hal, serveWrite] using writeReg_answers_next (regAt offset) v s
  | store a b => exact ⟨_, serveStore_outside a b hok⟩
  | setReadable ranges => exact ⟨_, serveSetReadable_of_ok ranges s hok⟩
  | reset => exact ⟨_, rfl⟩

/-- As many steps as there are inputs serve them all: each step serves the oldest, keeps the platform admissible and leaves the
other inputs their meaning. -/
theorem run_serves_pending {s : State} (hp : PlatformOk s) (hok : ∀ x ∈ s.pending, InputOk s.platform x) :
    ∃ t, Sys2Proof.core.run s.pending.length s = .next t ∧ t.pending = [] := by
  induction hx : s.pending generalizing s with
  | nil => exact ⟨s, run_zero s, hx⟩
  | cons x rest ih =>
    rw [hx] at hok
    obtain ⟨u, hserve⟩ := serve_answers_next (s := s.withPending rest) (hok x List.mem_cons_self)
    have hstep : step s = .next u := (step_serve s x rest hp hx).trans hserve
    have heffect : ServeEffect (s.withPending rest) x u := serveEffect_of_serve hserve
    have hpend : u.pending = rest := heffect.pending_eq
    have hmeaning : ∀ y ∈ u.pending, InputOk u.platform y := fun y hy =>
      (heffect.inputOk_iff y).2 (hok y (List.mem_cons_of_mem x (hpend ▸ hy)))
    obtain ⟨t, hrun, hdone⟩ := ih (step_keeps_platformOk hstep) hmeaning hpend
    exact ⟨t, (run_succ_next rest.length s u hstep).trans hrun, hdone⟩

/-- Settles O47. -/
theorem everyMeaningfulRunEnds : Obligations.EveryMeaningfulRunEnds := by
  intro s hp hok
  obtain ⟨t, hrun, hdone⟩ := run_serves_pending hp hok
  exact ⟨t, ⟨hp, hrun⟩, hdone⟩

end Sys2Proof.Machine
end

section
/-! SUPPORT. Proofs of the statements about a message with its own result behind it (spec/95_test_vectors.md V4), a select that
names no table (spec/30_encoding.md R73), and the canonical form of the buffer memory (spec/20_memory.md). -/

namespace Sys2Proof.Machine

/-! ### The residue of CCITT (95_test_vectors V4) -/

section residue
variable (t : Table) (c d : Half) (b : Byte)

/-- The state's own low byte, XORed into the next byte, leaves the index; only the high byte of the state comes down. -/
theorem stepR_lowByte_xor : stepR t c (c.extractLsb' 0 8 ^^^ b) = stepR t 0x0000#16 b ^^^ c >>> 8 := by
  simp [stepR_eq]

theorem lowByte_ushiftRight : (c >>> 8).extractLsb' 0 8 = c.extractLsb' 8 8 := by
  apply BitVec.eq_of_getLsbD_eq
  intro i hi
  simp [BitVec.getLsbD_extractLsb']

/-- The high byte that came down leaves the index in the next step, and is shifted out. -/
theorem stepR_xor_highByte : stepR t (d ^^^ c >>> 8) (c.extractLsb' 8 8 ^^^ b) = stepR t d b := by
  have hout : c >>> 8 >>> 8 = 0x0000#16 := by
    rw [← BitVec.shiftRight_add]
    exact BitVec.ushiftRight_eq_zero le_rfl
  have hindex : (d ^^^ c >>> 8).extractLsb' 0 8 ^^^ (c.extractLsb' 8 8 ^^^ b) = d.extractLsb' 0 8 ^^^ b := by
    rw [BitVec.extractLsb'_xor, lowByte_ushiftRight, BitVec.xor_assoc, ← BitVec.xor_assoc (c.extractLsb' 8 8),
      BitVec.xor_self, BitVec.zero_xor]
  rw [stepR_eq, stepR_eq, hindex, BitVec.ushiftRight_xor_distrib, hout, BitVec.xor_zero]

/-- The masked state, low byte first, leaves what the mask alone leaves from state 0: nothing of the state remains. -/
theorem kernelR_maskedBytes (mask : Half) :
    kernelR t c [(c ^^^ mask).extractLsb' 0 8, (c ^^^ mask).extractLsb' 8 8] =
      kernelR t 0x0000#16 [mask.extractLsb' 0 8, mask.extractLsb' 8 8] := by
  simp only [BitVec.extractLsb'_xor, kernelR_cons, kernelR_nil, stepR_lowByte_xor, stepR_xor_highByte]

end residue

/-- Settles O37: the residue is the output mask's own, whatever state the message ends in. -/
theorem ccittResidueIsConstant : Obligations.CcittResidueIsConstant := by
  intro message out raw
  have hraw : raw = 0xF0B8#16 := calc
    raw = kernelR .ccittReverse (kernelR .ccittReverse 0xFFFF#16 message) [out.extractLsb' 0 8, out.extractLsb' 8 8] :=
      List.foldl_append
    _ = kernelR .ccittReverse 0x0000#16 [0xFF#8, 0xFF#8] := kernelR_maskedBytes _ _ _
    _ = 0xF0B8#16 := by decide
  rw [hraw]
  decide

/-! ### A select that names no table (30_encoding R73) -/

section illFormed
variable {i : Instr} (hill : ¬ WellFormed i)
include hill

/-- A command can only be ill-formed in its table select. -/
theorem usesTsel_of_not_wellFormed :
    i.opcode.usesTsel = true ∧ legalTsel (tselField (encode i)) = false := by
  cases i with
  | kref | kunref | tblrd => exact ⟨rfl, by rwa [encode, tselField_commandWord, ← Bool.not_eq_true]⟩
  | _ => exact absurd rfl hill

theorem exec_of_not_wellFormed {s : State} (hrun : s.halted = false) : exec i s = .next (s.raise .badTsel (encode i)) := by
  obtain ⟨-, hlegal⟩ := usesTsel_of_not_wellFormed hill
  have hnone : tableOfTsel (tselField (encode i)) = none := tableOfTsel_eq_none.2 (legalTsel_eq_false.1 hlegal)
  rw [exec_eq_next]
  cases i with
  | kref | kunref | tblrd =>
    rw [encode, tselField_commandWord] at hnone
    exact congrArg _ (withTable_badTsel _ _ _ s hrun hnone)
  | _ => exact absurd rfl hill

theorem issue_encode_of_not_wellFormed {s : State} (hrun : s.halted = false) :
    issue (encode i) s = .next (s.raise .badTsel (encode i)) := by
  obtain ⟨huses, hlegal⟩ := usesTsel_of_not_wellFormed hill
  exact issue_badTsel hrun (opcField_encode i) (reservedFieldNonzero_encode i) huses hlegal

end illFormed

/-- Settles O23: the select is the word's own, so the decoder stops the word for what stops the command. -/
theorem illFormedSelectTakesTheBadTselFault : Obligations.IllFormedSelectTakesTheBadTselFault := by
  intro i s hrun hill
  have hexec := exec_of_not_wellFormed hill hrun
  exact ⟨hexec, (issue_encode_of_not_wellFormed hill hrun).trans hexec.symm⟩

/-! ### The canonical form of a memory (20_memory R50, log 1) -/

section canonical
variable {lo k : Nat} {v : Byte} {rest : Memory}

theorem read_cons (a : Nat) : Memory.read ((k, v) :: rest) a = if k = a then v else rest.read a := rfl

theorem wfFrom_cons : Memory.wfFrom lo ((k, v) :: rest) = true ↔
    lo ≤ k ∧ k < Config.bufferSpace ∧ v ≠ unlistedByte ∧ Memory.wfFrom (k + 1) rest = true := by
  simp [Memory.wfFrom, and_assoc]

variable (h : Memory.wfFrom lo ((k, v) :: rest) = true)
include h

theorem read_firstAddr_ne : Memory.read ((k, v) :: rest) k ≠ unlistedByte := by
  obtain ⟨-, -, hv, -⟩ := wfFrom_cons.1 h
  rwa [read_cons, if_pos rfl]

theorem firstAddr_le {a : Nat} (hread : Memory.read ((k, v) :: rest) a ≠ unlistedByte) : k ≤ a := by
  obtain ⟨-, hk, hv, hrest⟩ := wfFrom_cons.1 h
  have hfrom : Memory.wfFrom k ((k, v) :: rest) = true := wfFrom_cons.2 ⟨le_rfl, hk, hv, hrest⟩
  exact le_of_not_gt fun hlt => hread (read_below _ k a hfrom hlt)

/-- Without its first cell a memory reads as before, but for that cell's address. -/
theorem read_rest (a : Nat) :
    rest.read a = if k = a then unlistedByte else Memory.read ((k, v) :: rest) a := by
  obtain ⟨-, -, -, hrest⟩ := wfFrom_cons.1 h
  split
  case isTrue hka => exact read_below rest (k + 1) a hrest (by omega)
  case isFalse hka => rw [read_cons, if_neg hka]

end canonical

/-- The first cell holds the lowest address that does not read as unlisted, so the reads determine it, and with it what the other
cells read as. -/
theorem eq_of_read_eq {lo : Nat} {m m' : Memory} (hm : Memory.wfFrom lo m = true) (hm' : Memory.wfFrom lo m' = true)
    (hread : ∀ a, m.read a = m'.read a) : m = m' := by
  induction m generalizing lo m' with
  | nil =>
    cases m' with
    | nil => rfl
    | cons cell' rest' => exact absurd (hread cell'.1).symm (read_firstAddr_ne hm')
  | cons cell rest ih =>
    cases m' with
    | nil => exact absurd (hread cell.1) (read_firstAddr_ne hm)
    | cons cell' rest' =>
      obtain ⟨k, v⟩ := cell
      obtain ⟨k', v'⟩ := cell'
      have hle : k ≤ k' := firstAddr_le hm (hread k' ▸ read_firstAddr_ne hm')
      have hge : k' ≤ k := firstAddr_le hm' (hread k ▸ read_firstAddr_ne hm)
      obtain rfl : k = k' := le_antisymm hle hge
      obtain rfl : v = v' := by simpa only [read_cons, if_true] using hread k
      obtain ⟨-, -, -, hrest⟩ := wfFrom_cons.1 hm
      obtain ⟨-, -, -, hrest'⟩ := wfFrom_cons.1 hm'
      have htail : rest = rest' := ih hrest hrest' fun a => by rw [read_rest hm, read_rest hm', hread]
      rw [htail]

/-- Settles O52. -/
theorem canonicalMemoriesAreEqualIfTheyReadEqual : Obligations.CanonicalMemoriesAreEqualIfTheyReadEqual :=
  fun _ _ hm hm' hread => eq_of_read_eq hm hm' hread

end Sys2Proof.Machine
end
